-- ==== Sys2Proof/Word.lean ====
section
/-! DEFINITION. The word types of AME and nothing else (00_scope.md R6, R7; 40_fixed_point.md R120). -/

namespace Sys2Proof

/-- A 32-bit value of the host bus: a command word, a control register's value. -/
abbrev Word := BitVec 32

/-- A wide fixed-point value, I24F8: 32 bits, two's complement, standing for its signed integer over 256 (R8, R120). -/
abbrev Wide := BitVec 32

/-- A narrow fixed-point value, I8F8: 16 bits, two's complement, standing for its signed integer over 256 (R8, R120). -/
abbrev Narrow := BitVec 16

/-- The smallest addressable unit of the window (R60). -/
abbrev Byte := BitVec 8

end Sys2Proof
end

