-- ==== Sys2Proof/Config.lean ====
section
/-! DEFINITION. What is fixed for one machine and left open by the spec (00_scope.md R6, 10_state.md R44): the free entries of
the trigonometric table, and the place of the window on the host bus. The constants have no body: no proof can lean on a value. -/

namespace Sys2Proof.Config

/-- The free part of TRIG's cosine column (40_fixed_point.md R127): entry `k` is the raw value `cosFree k - 256`, so that every
entry lies in -256 .. 256 (R130) and nothing else is known of it. At the pinned angles (R128, R129) it is not consulted. Log 6. -/
opaque cosFree : BitVec 8 → Fin 513

/-- The free part of TRIG's sine column (40_fixed_point.md R127), in the form of `cosFree`. Log 6. -/
opaque sinFree : BitVec 8 → Fin 513

/-- BASE divided by 0x200 (20_memory.md R62): any natural number. Log 7. -/
opaque baseSlot : Nat

/-- The size of the window in bytes (00_scope.md R6). -/
def windowSize : Nat := 0x200

/-- BASE, the address of the window on the host bus: a multiple of 0x200 (20_memory.md R62). -/
def base : Nat := windowSize * baseSlot

end Sys2Proof.Config
end

