-- ==== Sys2Proof/Machine/FixedPoint.lean ====
section
/-! DEFINITION. The scalar operations of AME (40_fixed_point.md R120 to R125) and the scalar conversions (42_narrow_widen.md R161
to R163): operands to integers, the exact result, narrowed once at the end. -/

namespace Sys2Proof.Machine

/-- 1.0 in I24F8 (00_scope.md R8). -/
def one : Wide := 0x00000100

/-- `fxmul`: the exact product over 256, rounded toward minus infinity, modulo 2^32 (40_fixed_point.md R122). `/` on `Int` with a
positive divisor is the floor. -/
def fxmul (p q : Wide) : Wide := BitVec.ofInt 32 (p.toInt * q.toInt / 256)

/-- `fxadd`: the sum modulo 2^32 (40_fixed_point.md R123). -/
def fxadd (p q : Wide) : Wide := BitVec.ofInt 32 (p.toInt + q.toInt)

/-- `fxneg`: two's complement negation modulo 2^32 (40_fixed_point.md R124). -/
def fxneg (p : Wide) : Wide := BitVec.ofInt 32 (-p.toInt)

/-- `fxsub`, the sum with the negation; no command subtracts except through `fxneg` (40_fixed_point.md R123). -/
def fxsub (p q : Wide) : Wide := fxadd p (fxneg q)

/-- `fits8`: magnitude strictly below 128.0 (40_fixed_point.md R125; 90_conflicts.md C2). -/
def fits8 (v : Wide) : Bool := decide (-32768 < v.toInt) && decide (v.toInt < 32768)

/-- The truncation `v[15:0]` of both narrowings (42_narrow_widen.md R161, R162). -/
def narrow16 (v : Wide) : Narrow := v.extractLsb' 0 16

/-- Widening by sign extension, `sext_32` (42_narrow_widen.md R163). -/
def sext32 (n : Narrow) : Wide := BitVec.ofInt 32 n.toInt

end Sys2Proof.Machine
end

