-- ==== Sys2Proof/Syntax.lean ====
section
/-! DEFINITION. The thirteen commands of AME (30_encoding.md R96) and the seven raw fields of a command word (R91). -/

namespace Sys2Proof

/-- A legal register index, 0 to 3 (30_encoding.md R91). Which file it selects is fixed by the command. -/
abbrev Idx := Fin 4

/-- A command with its register indices, one constructor per row of 30_encoding.md R96; `d` is the destination, the rest are the
sources in the order of the row. An index is legal by its type (log 14). -/
inductive Instr where
  /-- `IDENT Md` (R141). -/
  | ident (d : Idx)
  /-- `ROT Md, Va` (R142). -/
  | rot (d a : Idx)
  /-- `TRN Md, Va` (R143). -/
  | trn (d a : Idx)
  /-- `SCL Md, Va` (R144). -/
  | scl (d a : Idx)
  /-- `POS Vd, Ma` (R145). -/
  | pos (d a : Idx)
  /-- `MUL Md, Ma, Mb` (R147). -/
  | mul (d a b : Idx)
  /-- `TRYBG Bd, Ma` (R164). -/
  | trybg (d a : Idx)
  /-- `TRYOBJ Od, Ma` (R166). -/
  | tryobj (d a : Idx)
  /-- `WRPBG Bd, Ma` (R165). -/
  | wrpbg (d a : Idx)
  /-- `WRPOBJ Od, Ma` (R167). -/
  | wrpobj (d a : Idx)
  /-- `WIDBG Md, Ba` (R168). -/
  | widbg (d a : Idx)
  /-- `WIDOBJ Md, Oa` (R169). -/
  | widobj (d a : Idx)
  /-- `BGSRP Bd, Va, Vb, Vc, Ve`: origin, position, scale, rotation (R180). -/
  | bgsrp (d a b c e : Idx)
  deriving DecidableEq, Repr

/-- The four formats, which differ in the index fields they use (30_encoding.md R92): none, one, two or four sources. -/
inductive Format where
  | N | U | T | Q
  deriving DecidableEq, Repr

/-- A command word cut into the fields of 30_encoding.md R91, before any check: an index field is four bits wide. -/
structure Fields where
  opc  : BitVec 8
  rd   : BitVec 4
  ra   : BitVec 4
  rb   : BitVec 4
  rc   : BitVec 4
  re   : BitVec 4
  zero : BitVec 4
  deriving DecidableEq, Repr

end Sys2Proof
end

