-- ==== Sys2Proof/WellFormed.lean ====
section
/-! DEFINITION. Which raw command words are commands, in the words of 30_encoding.md R98: written from the prose, independently
of the masks and match values of R96 that the decoder uses. An `Instr` needs no check: its indices are legal by type (log 14). -/

namespace Sys2Proof

/-- The format of an assigned opcode byte, `none` for an unassigned one (30_encoding.md R92, R94). -/
def formatOf (opc : BitVec 8) : Option Format :=
  if opc = 0x01 then some .N
  else if 0x02 ≤ opc ∧ opc ≤ 0x05 then some .U
  else if opc = 0x06 then some .T
  else if 0x10 ≤ opc ∧ opc ≤ 0x15 then some .U
  else if opc = 0x20 then some .Q
  else none

/-- Which of RA, RB, RC, RE a format uses (30_encoding.md R92); every format uses RD. -/
def Format.usesRA : Format → Bool
  | .N => false | .U => true | .T => true | .Q => true

/-- See `Format.usesRA`. -/
def Format.usesRB : Format → Bool
  | .N => false | .U => false | .T => true | .Q => true

/-- See `Format.usesRA`. -/
def Format.usesRC : Format → Bool
  | .N => false | .U => false | .T => false | .Q => true

/-- See `Format.usesRA`. -/
def Format.usesRE : Format → Bool
  | .N => false | .U => false | .T => false | .Q => true

/-- An index field is right when it holds 0..3 if the format uses it and zero if it does not (30_encoding.md R98 case 2). -/
def indexOk (used : Bool) (f : BitVec 4) : Bool :=
  if used then decide (f < 4) else decide (f = 0)

/-- The fields make a legal command (30_encoding.md R98: the negation of its two cases). -/
def Fields.wellFormed (f : Fields) : Bool :=
  match formatOf f.opc with
  | none => false
  | some k =>
    indexOk true f.rd && indexOk k.usesRA f.ra && indexOk k.usesRB f.rb && indexOk k.usesRC f.rc && indexOk k.usesRE f.re
      && decide (f.zero = 0)

end Sys2Proof
end

