-- ==== Sys2Proof/Decode.lean ====
section
/-! DEFINITION. Decoding a command word, total and rejecting by name (30_encoding.md R96 to R98), and the encoder (R101), both
from the tables of 30_encoding.md R91, R92 and R96. -/

namespace Sys2Proof

/-- Why a word is no command; the two reasons of 30_encoding.md R98. -/
inductive DecodeError where
  /-- Reason 0: the opcode byte is not one of the thirteen. -/
  | unknownOpcode
  /-- Reason 1: the opcode byte is known, but an index is above 3 or a field that must be zero is not. -/
  | badField
  deriving DecidableEq, Repr

/-- The number CAUSE.INFO reports for it (10_state.md R39). -/
def DecodeError.reason : DecodeError → BitVec 4
  | .unknownOpcode => 0
  | .badField => 1

/-- The names of the rows of 30_encoding.md R96. -/
inductive Op where
  | ident | rot | trn | scl | pos | mul | trybg | tryobj | wrpbg | wrpobj | widbg | widobj | bgsrp
  deriving DecidableEq, Repr

/-- One row of 30_encoding.md R96: the opcode byte, and the match and mask words. -/
structure Row where
  op   : Op
  opc  : BitVec 8
  pat  : Word
  mask : Word
  deriving DecidableEq, Repr

/-- The complete command table, 30_encoding.md R96, row by row. -/
def opcodeTable : List Row := [
  ⟨.ident,  0x01, 0x01000000, 0xFFCFFFFF⟩,
  ⟨.rot,    0x02, 0x02000000, 0xFFCCFFFF⟩,
  ⟨.trn,    0x03, 0x03000000, 0xFFCCFFFF⟩,
  ⟨.scl,    0x04, 0x04000000, 0xFFCCFFFF⟩,
  ⟨.pos,    0x05, 0x05000000, 0xFFCCFFFF⟩,
  ⟨.mul,    0x06, 0x06000000, 0xFFCCCFFF⟩,
  ⟨.trybg,  0x10, 0x10000000, 0xFFCCFFFF⟩,
  ⟨.tryobj, 0x11, 0x11000000, 0xFFCCFFFF⟩,
  ⟨.wrpbg,  0x12, 0x12000000, 0xFFCCFFFF⟩,
  ⟨.wrpobj, 0x13, 0x13000000, 0xFFCCFFFF⟩,
  ⟨.widbg,  0x14, 0x14000000, 0xFFCCFFFF⟩,
  ⟨.widobj, 0x15, 0x15000000, 0xFFCCFFFF⟩,
  ⟨.bgsrp,  0x20, 0x20000000, 0xFFCCCCCF⟩]

/-- The opcode byte, bits 31:24 (30_encoding.md R91). -/
def opcOf (w : Word) : BitVec 8 := w.extractLsb' 24 8

/-- The two low bits of an index field whose lowest bit is bit `lo` (30_encoding.md R97). -/
def indexAt (w : Word) (lo : Nat) : Idx := Fin.ofNat 4 (w.extractLsb' lo 2).toNat

/-- The command a row names, with d = w[21:20], a = w[17:16], b = w[13:12], c = w[9:8], e = w[5:4] (30_encoding.md R97). -/
def Op.instr (op : Op) (w : Word) : Instr :=
  let d := indexAt w 20
  let a := indexAt w 16
  let b := indexAt w 12
  let c := indexAt w 8
  let e := indexAt w 4
  match op with
  | .ident => .ident d
  | .rot => .rot d a
  | .trn => .trn d a
  | .scl => .scl d a
  | .pos => .pos d a
  | .mul => .mul d a b
  | .trybg => .trybg d a
  | .tryobj => .tryobj d a
  | .wrpbg => .wrpbg d a
  | .wrpobj => .wrpobj d a
  | .widbg => .widbg d a
  | .widobj => .widobj d a
  | .bgsrp => .bgsrp d a b c e

/-- The decode of `ExecuteCommand` (30_encoding.md R97): the row with the word's opcode byte, then the row's mask. Total. -/
def decode (w : Word) : Except DecodeError Instr :=
  match opcodeTable.find? (fun r => r.opc == opcOf w) with
  | none => .error .unknownOpcode
  | some r => if w &&& r.mask = r.pat then .ok (r.op.instr w) else .error .badField

/-- The fields of a word (30_encoding.md R91). -/
def Fields.ofWord (w : Word) : Fields where
  opc := opcOf w
  rd := w.extractLsb' 20 4
  ra := w.extractLsb' 16 4
  rb := w.extractLsb' 12 4
  rc := w.extractLsb' 8 4
  re := w.extractLsb' 4 4
  zero := w.extractLsb' 0 4

/-- An index as a command word's field. -/
def idxWord (i : Idx) : Word := BitVec.ofNat 32 i.val

/-- The encoding formula of 30_encoding.md R101, unused indices zero. -/
def assemble (opc : BitVec 8) (d : Idx) (a b c e : Idx := 0) : Word :=
  (opc.setWidth 32 <<< 24) ||| (idxWord d <<< 20) ||| (idxWord a <<< 16) ||| (idxWord b <<< 12) ||| (idxWord c <<< 8)
    ||| (idxWord e <<< 4)

/-- The word of a command (30_encoding.md R96, R101). -/
def encode : Instr → Word
  | .ident d => assemble 0x01 d
  | .rot d a => assemble 0x02 d a
  | .trn d a => assemble 0x03 d a
  | .scl d a => assemble 0x04 d a
  | .pos d a => assemble 0x05 d a
  | .mul d a b => assemble 0x06 d a b
  | .trybg d a => assemble 0x10 d a
  | .tryobj d a => assemble 0x11 d a
  | .wrpbg d a => assemble 0x12 d a
  | .wrpobj d a => assemble 0x13 d a
  | .widbg d a => assemble 0x14 d a
  | .widobj d a => assemble 0x15 d a
  | .bgsrp d a b c e => assemble 0x20 d a b c e

/-- The four bytes of a word as the bus lays them out, lowest address first (20_memory.md R64, 30_encoding.md R90). -/
def wordBytes (w : Word) : List Byte :=
  [w.extractLsb' 0 8, w.extractLsb' 8 8, w.extractLsb' 16 8, w.extractLsb' 24 8]

/-- The word whose bytes, lowest address first, are `bs`; bytes past the fourth are dropped (20_memory.md R64). -/
def wordOfBytes : List Byte → Word
  | [] => 0
  | b :: bs => b.setWidth 32 ||| (wordOfBytes bs <<< 8)

/-- Decode a command from its bytes; a command is exactly four (30_encoding.md R90, R100), so `none` for another number. -/
def decodeBytes (bs : List Byte) : Option (Except DecodeError Instr) :=
  if bs.length = 4 then some (decode (wordOfBytes bs)) else none

/-- The host's question to the decoder: the bits of `w` below `nbits`, the rest zero, laid out as AME's bus lays out the write to
CMD and given to `decodeBytes`. -/
def decodeTableWord (nbits w : Nat) : Option Instr :=
  match decodeBytes (wordBytes (BitVec.ofNat 32 (w % 2 ^ nbits))) with
  | some (.ok i) => some i
  | _ => none

end Sys2Proof
end

