-- ==== Sys2Proof/Machine/State.lean ====
section
/-! DEFINITION. The state of AME (10_state.md R20): the four register files, the control registers, and beside them the model's
own record of the host port. -/

namespace Sys2Proof.Machine

/-- A working matrix: the linear part a b / c d and the translation (x, y), all I24F8 (10_state.md R21, R22). -/
structure WorkingMatrix where
  a : Wide
  b : Wide
  c : Wide
  d : Wide
  x : Wide
  y : Wide
  deriving DecidableEq, Repr

/-- A vector register's two lanes, I24F8 (10_state.md R25). -/
structure Vec2 where
  x : Wide
  y : Wide
  deriving DecidableEq, Repr

/-- A background matrix: narrow linear part, wide translation (10_state.md R27). -/
structure BgMatrix where
  a : Narrow
  b : Narrow
  c : Narrow
  d : Narrow
  x : Wide
  y : Wide
  deriving DecidableEq, Repr

/-- An object matrix: narrow linear part, no translation (10_state.md R29). -/
structure ObjMatrix where
  a : Narrow
  b : Narrow
  c : Narrow
  d : Narrow
  deriving DecidableEq, Repr

/-- A register file of four interchangeable registers, numbered 0 to 3 (10_state.md R24). -/
structure Bank (α : Type) where
  r0 : α
  r1 : α
  r2 : α
  r3 : α
  deriving DecidableEq, Repr

/-- The 1792 bits of data registers (10_state.md R20; 70_reset_and_hazards.md R231). -/
structure DataRegs where
  /-- M0..M3 (R21). -/
  m : Bank WorkingMatrix
  /-- V0..V3 (R25). -/
  v : Bank Vec2
  /-- B0..B3 (R27). -/
  b : Bank BgMatrix
  /-- O0..O3 (R29). -/
  o : Bank ObjMatrix
  deriving DecidableEq, Repr

/-- The stored control registers: STATUS's three bits, CAUSE's two fields, ECMD (10_state.md R38 to R40). The reserved bits of
STATUS and CAUSE are not stored (R41, log 11). -/
structure Control where
  /-- STATUS bit 0: the last fallible command overflowed (R33). -/
  ovf  : Bool
  /-- STATUS bit 1: some command has overflowed, sticky (R34). -/
  sovf : Bool
  /-- STATUS bit 2: some word was illegal, sticky (R35). -/
  ill  : Bool
  /-- CAUSE bits 3:0 (R39). -/
  code : BitVec 4
  /-- CAUSE bits 7:4 (R39). -/
  info : BitVec 4
  /-- The word of the most recent stored exception (R40). -/
  ecmd : Word
  deriving DecidableEq, Repr

/-- What the outside world does to AME, one step each: a bus transaction (20_memory.md R60) or the platform's reset
(70_reset_and_hazards.md R230). A transaction's address is given by its offset from BASE (R61, log 7). -/
inductive HostEvent where
  /-- `MemRead(BASE + off, n)`. -/
  | read (off n : Nat)
  /-- `MemWrite(BASE + off, n, v)`; the value is the low `8n` bits of `v` (log 12). -/
  | write (off n : Nat) (v : Word)
  /-- The reset, with the unspecified content RESET_DATA it leaves in the data registers (R231, log 5). -/
  | reset (data : DataRegs)
  deriving DecidableEq, Repr

/-- The two responses of the bus (20_memory.md R60), OK with and without data. -/
inductive Response where
  /-- OK, to a write. -/
  | ok
  /-- OK with the data read, in the low `8n` bits, the rest zero (log 12). -/
  | okData (v : Word)
  /-- ERR: AccessFault (60_exceptions.md R205). -/
  | err
  deriving DecidableEq, Repr

/-- The model's own record of the host port, no part of AME's state (10_state.md R43; logs 1 and 3). -/
structure Port where
  /-- The host events not yet performed, oldest first: the host's program. -/
  pending  : List HostEvent
  /-- The response to the most recent transaction, none before the first after a reset. -/
  response : Option Response
  deriving DecidableEq, Repr

/-- The whole state: AME's registers, AME's control registers, and the model's host port. -/
structure State where
  regs : DataRegs
  ctl  : Control
  port : Port
  deriving DecidableEq, Repr

/-- The reasons a step could stop with a fault: NONE. Nothing in AME halts (00_scope.md R14; 93_implementation_defined.md,
section 2, "Nothing in AME is stuck"): Overflow, IllegalCommand and AccessFault are recorded and answered, and the machine goes
on, so each is a next state. Having no constructor is safe: it hides no stop. Log 18. -/
inductive Fault : Type
  deriving DecidableEq, Repr

/-- The reasons a step has no meaning. -/
inductive Refusal where
  /-- Raised by an arm of `exec` that has no meaning yet, by the row's mnemonic; safe. No arm of this model raises it. -/
  | notModelled (mnemonic : String)
  /-- Raised by a step whose transaction has an address outside BASE .. BASE + 0x1FF: it is not AME's, and the spec defines
  nothing for it (20_memory.md R61; 93_implementation_defined.md U7, `refuse`); safe. Logs 8 and 15. -/
  | outsideWindow
  deriving DecidableEq, Repr

/-- The control registers after reset (70_reset_and_hazards.md R232). -/
def Control.reset : Control := ⟨false, false, false, 0, 0, 0⟩

/-- The value the model names for the data registers in `State.reset`: all zero. DESIGN CHOICE, unsafe: the spec says RESET_DATA
is unspecified (70_reset_and_hazards.md R231). No statement rests on it; a reset EVENT brings any data. Log 4. -/
def DataRegs.zero : DataRegs where
  m := ⟨⟨0, 0, 0, 0, 0, 0⟩, ⟨0, 0, 0, 0, 0, 0⟩, ⟨0, 0, 0, 0, 0, 0⟩, ⟨0, 0, 0, 0, 0, 0⟩⟩
  v := ⟨⟨0, 0⟩, ⟨0, 0⟩, ⟨0, 0⟩, ⟨0, 0⟩⟩
  b := ⟨⟨0, 0, 0, 0, 0, 0⟩, ⟨0, 0, 0, 0, 0, 0⟩, ⟨0, 0, 0, 0, 0, 0⟩, ⟨0, 0, 0, 0, 0, 0⟩⟩
  o := ⟨⟨0, 0, 0, 0⟩, ⟨0, 0, 0, 0⟩, ⟨0, 0, 0, 0⟩, ⟨0, 0, 0, 0⟩⟩

/-- The machine right after a reset that left `data` in the data registers, with no host event pending (R230 to R232). -/
def State.afterReset (data : DataRegs) : State := ⟨data, Control.reset, ⟨[], none⟩⟩

/-- The machine right after reset, with the model's named RESET_DATA (R230 to R232; log 4). -/
def State.reset : State := State.afterReset DataRegs.zero

end Sys2Proof.Machine
end

