-- ==== Sys2Proof/Machine/Flags.lean ====
section
/-! DEFINITION. Every computation on the flags and the exception record: STATUS, CAUSE, ECMD (10_state.md R32 to R41). -/

namespace Sys2Proof.Machine

/-- A flag as a bit of a word. -/
def flagBit (f : Bool) (pos : Nat) : Word := if f then 1 <<< pos else 0

/-- What a read of STATUS returns: 29 zero bits, ILL, SOVF, OVF (10_state.md R36, R38). -/
def Control.statusWord (c : Control) : Word := flagBit c.ill 2 ||| flagBit c.sovf 1 ||| flagBit c.ovf 0

/-- What a read of CAUSE returns: 24 zero bits, INFO, CODE (10_state.md R36, R39). -/
def Control.causeWord (c : Control) : Word := (c.info.setWidth 32 <<< 4) ||| c.code.setWidth 32

/-- A host write of `v` to STATUS: write one to clear SOVF and ILL, all else ignored (10_state.md R38). -/
def Control.clearFlags (v : Word) (c : Control) : Control :=
  { c with sovf := c.sovf && !v.getLsbD 1, ill := c.ill && !v.getLsbD 2 }

/-- A fallible command that completes clears OVF and nothing else (10_state.md R33, R34). -/
def Control.completeFallible (c : Control) : Control := { c with ovf := false }

/-- The flags of `raise Overflow` (60_exceptions.md R203). -/
def Control.flagOverflow (c : Control) : Control := { c with ovf := true, sovf := true }

/-- The flag of `raise IllegalCommand` (60_exceptions.md R204). -/
def Control.flagIllegal (c : Control) : Control := { c with ill := true }

/-- The record of an exception: CAUSE and ECMD overwritten (10_state.md R39, R40; 60_exceptions.md R209). -/
def Control.record (code info : BitVec 4) (w : Word) (c : Control) : Control := { c with code := code, info := info, ecmd := w }

end Sys2Proof.Machine
end

