-- ==== Sys2Proof/Machine/Ops.lean ====
section
/-! DEFINITION. The named operations over the registers, and TAKING AN EXCEPTION (60_exceptions.md R203, R204, R208). There is no
return from an exception: nothing is saved to restore, and the next command executes normally (R209). -/

namespace Sys2Proof.Machine

/-- Register `i` of a file. -/
def Bank.get {α : Type} (k : Bank α) (i : Idx) : α :=
  match i with
  | 0 => k.r0
  | 1 => k.r1
  | 2 => k.r2
  | 3 => k.r3

/-- The file with register `i` replaced. -/
def Bank.set {α : Type} (k : Bank α) (i : Idx) (x : α) : Bank α :=
  match i with
  | 0 => { k with r0 := x }
  | 1 => { k with r1 := x }
  | 2 => { k with r2 := x }
  | 3 => { k with r3 := x }

/-- `M[i]` (00_scope.md R9). -/
def State.readM (s : State) (i : Idx) : WorkingMatrix := s.regs.m.get i
/-- `V[i]`. -/
def State.readV (s : State) (i : Idx) : Vec2 := s.regs.v.get i
/-- `B[i]`. -/
def State.readB (s : State) (i : Idx) : BgMatrix := s.regs.b.get i
/-- `O[i]`. -/
def State.readO (s : State) (i : Idx) : ObjMatrix := s.regs.o.get i

/-- `M[i] <- x`, all six fields (00_scope.md R9, 10_state.md R23). -/
def State.writeM (s : State) (i : Idx) (x : WorkingMatrix) : State := { s with regs := { s.regs with m := s.regs.m.set i x } }
/-- `V[i] <- x`, both lanes. -/
def State.writeV (s : State) (i : Idx) (x : Vec2) : State := { s with regs := { s.regs with v := s.regs.v.set i x } }
/-- `B[i] <- x`, all six fields. -/
def State.writeB (s : State) (i : Idx) (x : BgMatrix) : State := { s with regs := { s.regs with b := s.regs.b.set i x } }
/-- `O[i] <- x`, all four fields. -/
def State.writeO (s : State) (i : Idx) (x : ObjMatrix) : State := { s with regs := { s.regs with o := s.regs.o.set i x } }

/-- The state with its control registers changed by `f`. -/
def State.mapCtl (s : State) (f : Control → Control) : State := { s with ctl := f s.ctl }

/-- A fallible command's success: OVF <- 0 (10_state.md R33). -/
def State.completeFallible (s : State) : State := s.mapCtl Control.completeFallible

/-- TAKING AN EXCEPTION, the one shared operation: `flags` sets the flags of its kind, CAUSE gets `code` and `info`, ECMD the
command word `w`; no data register is touched (60_exceptions.md R203, R204, R208). -/
def State.takeException (s : State) (flags : Control → Control) (code info : BitVec 4) (w : Word) : State :=
  s.mapCtl fun c => (flags c).record code info w

/-- `raise Overflow(info)` in the command with word `w` (60_exceptions.md R203). -/
def State.raiseOverflow (s : State) (info : BitVec 4) (w : Word) : State := s.takeException Control.flagOverflow 1 info w

/-- `raise IllegalCommand(reason)` for the written word `w` (60_exceptions.md R204). -/
def State.raiseIllegal (s : State) (e : DecodeError) (w : Word) : State := s.takeException Control.flagIllegal 2 e.reason w

/-- How a fallible command `i` ends: with the first failing value's number, Overflow, else `done` with OVF cleared
(60_exceptions.md R202, R203; 10_state.md R33). The command word is the encoding of `i`, its only one (log 10). -/
def State.endFallible (s : State) (i : Instr) (failing : Option (BitVec 4)) (done : State) : State :=
  match failing with
  | some info => s.raiseOverflow info (encode i)
  | none => done.completeFallible

/-- The bus answers `r` to the transaction being performed (20_memory.md R60; log 3). -/
def State.respond (s : State) (r : Response) : State := { s with port := { s.port with response := some r } }

end Sys2Proof.Machine
end

