-- ==== Sys2Proof/Machine/Operands.lean ====
section
/-! DEFINITION. The operand forms (30_encoding.md R93): whole registers (Machine/Ops.lean), and the one computed operand, an angle
reduced and looked up in TRIG (40_fixed_point.md R127 to R130). -/

namespace Sys2Proof.Machine

/-- The angle held in lane x of a vector, reduced modulo one turn: `angle[7:0]`; lane y is not read (40_fixed_point.md R127). -/
def angleOf (v : Vec2) : BitVec 8 := v.x.extractLsb' 0 8

/-- A free table entry as a wide value, of magnitude at most 1.0 (40_fixed_point.md R130). -/
def trigEntry (n : Fin 513) : Wide := BitVec.ofInt 32 ((n.val : Int) - 256)

/-- `cos_t(k)`: pinned at 0, a quarter, half and three quarters of a turn (40_fixed_point.md R128, R129), else free within the
bound (R130). Log 6. -/
def cosT (k : BitVec 8) : Wide :=
  if k = 0 then one
  else if k = 64 then 0
  else if k = 128 then 0xFFFFFF00
  else if k = 192 then 0
  else trigEntry (Config.cosFree k)

/-- `sin_t(k)`, as `cosT` (40_fixed_point.md R128 to R130). Log 6. -/
def sinT (k : BitVec 8) : Wide :=
  if k = 0 then 0
  else if k = 64 then one
  else if k = 128 then 0
  else if k = 192 then 0xFFFFFF00
  else trigEntry (Config.sinFree k)

end Sys2Proof.Machine
end

