-- ==== Sys2Proof/Machine/Matrix.lean ====
section
/-! DEFINITION. The values the commands build: constructors and product of working matrices (41_working_matrix.md), the matrix
conversions (42_narrow_widen.md), the composite (43_compose.md). -/

namespace Sys2Proof.Machine

/-- The identity (41_working_matrix.md R141). -/
def identityMatrix : WorkingMatrix := ⟨one, 0, 0, one, 0, 0⟩

/-- `from_rotation` at table index `k`: a = cos, b = -sin, c = sin, d = cos, no translation (41_working_matrix.md R142). -/
def rotationMatrix (k : BitVec 8) : WorkingMatrix := ⟨cosT k, fxneg (sinT k), sinT k, cosT k, 0, 0⟩

/-- `from_translation`: the negated position, identity linear part (41_working_matrix.md R143). -/
def translationMatrix (p : Vec2) : WorkingMatrix := ⟨one, 0, 0, one, fxneg p.x, fxneg p.y⟩

/-- `from_scale`: the scale as given (41_working_matrix.md R144). -/
def scaleMatrix (s : Vec2) : WorkingMatrix := ⟨s.x, 0, 0, s.y, 0, 0⟩

/-- `position()`: the negated translation (41_working_matrix.md R145). -/
def positionOf (w : WorkingMatrix) : Vec2 := ⟨fxneg w.x, fxneg w.y⟩

/-- The product, the six formulas of 41_working_matrix.md R146; each `*` and `+` is one operation (40_fixed_point.md R121). -/
def matmul (p q : WorkingMatrix) : WorkingMatrix where
  a := fxadd (fxmul p.a q.a) (fxmul p.b q.c)
  b := fxadd (fxmul p.a q.b) (fxmul p.b q.d)
  c := fxadd (fxmul p.c q.a) (fxmul p.d q.c)
  d := fxadd (fxmul p.c q.b) (fxmul p.d q.d)
  x := fxadd (fxadd (fxmul p.a q.x) (fxmul p.b q.y)) p.x
  y := fxadd (fxadd (fxmul p.c q.x) (fxmul p.d q.y)) p.y

/-- The number of the first coefficient that does not fit, tested in the order a, b, c, d (42_narrow_widen.md R164, R166). -/
def firstUnfit (w : WorkingMatrix) : Option (BitVec 4) :=
  if !fits8 w.a then some 0
  else if !fits8 w.b then some 1
  else if !fits8 w.c then some 2
  else if !fits8 w.d then some 3
  else none

/-- The first scale lane that does not fit, lane x first: 4, 5 (43_compose.md R180, R184). -/
def firstUnfitScale (s : Vec2) : Option (BitVec 4) :=
  if !fits8 s.x then some 4
  else if !fits8 s.y then some 5
  else none

/-- Narrowing to the background format, coefficients truncated, translation copied (42_narrow_widen.md R160, R164, R165). -/
def narrowBg (w : WorkingMatrix) : BgMatrix := ⟨narrow16 w.a, narrow16 w.b, narrow16 w.c, narrow16 w.d, w.x, w.y⟩

/-- Narrowing to the object format, the translation dropped (42_narrow_widen.md R160, R166, R167). -/
def narrowObj (w : WorkingMatrix) : ObjMatrix := ⟨narrow16 w.a, narrow16 w.b, narrow16 w.c, narrow16 w.d⟩

/-- Widening from the background format (42_narrow_widen.md R168). -/
def widenBg (n : BgMatrix) : WorkingMatrix := ⟨sext32 n.a, sext32 n.b, sext32 n.c, sext32 n.d, n.x, n.y⟩

/-- Widening from the object format, translation zero (42_narrow_widen.md R169). -/
def widenObj (n : ObjMatrix) : WorkingMatrix := ⟨sext32 n.a, sext32 n.b, sext32 n.c, sext32 n.d, 0, 0⟩

/-- `((T1 * S) * R) * T2`, left to right, for origin `o`, position `p`, scale `s` and table index `k` (43_compose.md R180, R183). -/
def composite (o p s : Vec2) (k : BitVec 8) : WorkingMatrix :=
  matmul (matmul (matmul ⟨one, 0, 0, one, o.x, o.y⟩ (scaleMatrix s)) (rotationMatrix k)) (translationMatrix p)

end Sys2Proof.Machine
end

