-- ==== Sys2Proof/Machine/ComposeCmds.lean ====
section
/-! DEFINITION. The meaning of BGSRP (43_compose.md R180). -/

namespace Sys2Proof.Machine

/-- BGSRP Bd, Va, Vb, Vc, Ve: the scale lanes are tested before anything is computed, then the composed coefficients; on any failure
Overflow and no data register, else all of B[d] and OVF <- 0; no M or V register is written (43_compose.md R180, R184, R186). -/
def execBgsrp (d a b c e : Idx) (s : State) : Host.Outcome State Fault Refusal :=
  let w := composite (s.readV a) (s.readV b) (s.readV c) (angleOf (s.readV e))
  .next (s.endFallible (.bgsrp d a b c e) ((firstUnfitScale (s.readV c)).orElse fun _ => firstUnfit w) (s.writeB d (narrowBg w)))

end Sys2Proof.Machine
end

