-- ==== Sys2Proof/Machine/ConversionCmds.lean ====
section
/-! DEFINITION. The meanings of TRYBG, TRYOBJ, WRPBG, WRPOBJ, WIDBG, WIDOBJ (42_narrow_widen.md). -/

namespace Sys2Proof.Machine

/-- TRYBG Bd, Ma: all of B[d] and OVF <- 0, or Overflow and no data register (42_narrow_widen.md R164). -/
def execTrybg (d a : Idx) (s : State) : Host.Outcome State Fault Refusal :=
  .next (s.endFallible (.trybg d a) (firstUnfit (s.readM a)) (s.writeB d (narrowBg (s.readM a))))

/-- TRYOBJ Od, Ma (42_narrow_widen.md R166). -/
def execTryobj (d a : Idx) (s : State) : Host.Outcome State Fault Refusal :=
  .next (s.endFallible (.tryobj d a) (firstUnfit (s.readM a)) (s.writeO d (narrowObj (s.readM a))))

/-- WRPBG Bd, Ma: never fails, no flag (42_narrow_widen.md R165). -/
def execWrpbg (d a : Idx) (s : State) : Host.Outcome State Fault Refusal := .next (s.writeB d (narrowBg (s.readM a)))

/-- WRPOBJ Od, Ma (42_narrow_widen.md R167). -/
def execWrpobj (d a : Idx) (s : State) : Host.Outcome State Fault Refusal := .next (s.writeO d (narrowObj (s.readM a)))

/-- WIDBG Md, Ba: exact and total (42_narrow_widen.md R168). -/
def execWidbg (d a : Idx) (s : State) : Host.Outcome State Fault Refusal := .next (s.writeM d (widenBg (s.readB a)))

/-- WIDOBJ Md, Oa (42_narrow_widen.md R169). -/
def execWidobj (d a : Idx) (s : State) : Host.Outcome State Fault Refusal := .next (s.writeM d (widenObj (s.readO a)))

end Sys2Proof.Machine
end

