-- ==== Sys2Proof/Machine/WorkingMatrixCmds.lean ====
section
/-! DEFINITION. The meanings of IDENT, ROT, TRN, SCL, POS, MUL (41_working_matrix.md). None raises an exception or touches a
control register; each reads its sources from the state before it (R152). -/

namespace Sys2Proof.Machine

/-- IDENT Md (41_working_matrix.md R141). -/
def execIdent (d : Idx) (s : State) : Host.Outcome State Fault Refusal := .next (s.writeM d identityMatrix)

/-- ROT Md, Va: the angle is lane x of V[a] (41_working_matrix.md R142). -/
def execRot (d a : Idx) (s : State) : Host.Outcome State Fault Refusal :=
  .next (s.writeM d (rotationMatrix (angleOf (s.readV a))))

/-- TRN Md, Va (41_working_matrix.md R143). -/
def execTrn (d a : Idx) (s : State) : Host.Outcome State Fault Refusal := .next (s.writeM d (translationMatrix (s.readV a)))

/-- SCL Md, Va: no range check (41_working_matrix.md R144). -/
def execScl (d a : Idx) (s : State) : Host.Outcome State Fault Refusal := .next (s.writeM d (scaleMatrix (s.readV a)))

/-- POS Vd, Ma (41_working_matrix.md R145). -/
def execPos (d a : Idx) (s : State) : Host.Outcome State Fault Refusal := .next (s.writeV d (positionOf (s.readM a)))

/-- MUL Md, Ma, Mb (41_working_matrix.md R147). -/
def execMul (d a b : Idx) (s : State) : Host.Outcome State Fault Refusal := .next (s.writeM d (matmul (s.readM a) (s.readM b)))

end Sys2Proof.Machine
end

