-- ==== Sys2Proof/Machine/Dispatch.lean ====
section
/-! DEFINITION. The meaning of every command, one arm per constructor (30_encoding.md R96, R97). -/

namespace Sys2Proof.Machine

def exec (i : Instr) (s : State) : Host.Outcome State Fault Refusal :=
  match i with
  | .ident d => Sys2Proof.Machine.execIdent d s
  | .rot d a => Sys2Proof.Machine.execRot d a s
  | .trn d a => Sys2Proof.Machine.execTrn d a s
  | .scl d a => Sys2Proof.Machine.execScl d a s
  | .pos d a => Sys2Proof.Machine.execPos d a s
  | .mul d a b => Sys2Proof.Machine.execMul d a b s
  | .trybg d a => Sys2Proof.Machine.execTrybg d a s
  | .tryobj d a => Sys2Proof.Machine.execTryobj d a s
  | .wrpbg d a => Sys2Proof.Machine.execWrpbg d a s
  | .wrpobj d a => Sys2Proof.Machine.execWrpobj d a s
  | .widbg d a => Sys2Proof.Machine.execWidbg d a s
  | .widobj d a => Sys2Proof.Machine.execWidobj d a s
  | .bgsrp d a b c e => Sys2Proof.Machine.execBgsrp d a b c e s

end Sys2Proof.Machine
end

