-- ==== Sys2Proof/Machine/Window.lean ====
section
/-! DEFINITION. The window of 0x200 bytes: its map (20_memory.md R63), the byte view of the registers (R64, R71), and the admission
checks of a transaction (R65). The registers are stored once, in `DataRegs`; every byte is computed from them (log 13). -/

namespace Sys2Proof.Machine

/-- The coefficients a, b, c, d of a matrix (00_scope.md R11, linear part). -/
inductive Coef where
  | a | b | c | d
  deriving DecidableEq, Repr

/-- A lane of a vector, or of a matrix's translation. -/
inductive Lane where
  | x | y
  deriving DecidableEq, Repr

/-- The fields of the data registers, each one slot of the window (20_memory.md R63). -/
inductive Slot where
  | mCoef (i : Idx) (f : Coef)
  | mTrans (i : Idx) (l : Lane)
  | vLane (i : Idx) (l : Lane)
  | bCoef (i : Idx) (f : Coef)
  | bTrans (i : Idx) (l : Lane)
  | oCoef (i : Idx) (f : Coef)
  deriving DecidableEq, Repr

/-- The position of a coefficient in layout order (20_memory.md R63). -/
def Coef.number : Coef → Nat
  | .a => 0 | .b => 1 | .c => 2 | .d => 3

/-- The position of a lane in layout order. -/
def Lane.number : Lane → Nat
  | .x => 0 | .y => 1

/-- The offset of a field's lowest byte (20_memory.md R63). -/
def Slot.offset : Slot → Nat
  | .mCoef i f => 0x20 * i.val + 4 * f.number
  | .mTrans i l => 0x20 * i.val + 0x10 + 4 * l.number
  | .vLane i l => 0x080 + 0x08 * i.val + 4 * l.number
  | .bCoef i f => 0x0C0 + 0x10 * i.val + 2 * f.number
  | .bTrans i l => 0x0C0 + 0x10 * i.val + 0x8 + 4 * l.number
  | .oCoef i f => 0x100 + 0x08 * i.val + 2 * f.number

/-- The size of a field in bytes (20_memory.md R63). -/
def Slot.size : Slot → Nat
  | .mCoef _ _ => 4
  | .mTrans _ _ => 4
  | .vLane _ _ => 4
  | .bCoef _ _ => 2
  | .bTrans _ _ => 4
  | .oCoef _ _ => 2

/-- The coefficient at a position in layout order. -/
def coefAt (n : Nat) : Coef :=
  if n = 0 then .a else if n = 1 then .b else if n = 2 then .c else .d

/-- The lane at a position in layout order. -/
def laneAt (n : Nat) : Lane := if n = 0 then .x else .y

/-- The field that holds the byte at offset `off`, and which of its bytes it is, lowest first; `none` outside the mapped data
region (20_memory.md R63). -/
def locate (off : Nat) : Option (Slot × Nat) :=
  if off < 0x080 then
    let i := Fin.ofNat 4 (off / 0x20)
    let k := off % 0x20
    if k < 0x10 then some (.mCoef i (coefAt (k / 4)), k % 4)
    else if k < 0x18 then some (.mTrans i (laneAt ((k - 0x10) / 4)), k % 4)
    else none
  else if off < 0x0A0 then
    let i := Fin.ofNat 4 ((off - 0x080) / 0x08)
    let k := off % 0x08
    some (.vLane i (laneAt (k / 4)), k % 4)
  else if off < 0x0C0 then none
  else if off < 0x100 then
    let i := Fin.ofNat 4 ((off - 0x0C0) / 0x10)
    let k := off % 0x10
    if k < 0x8 then some (.bCoef i (coefAt (k / 2)), k % 2)
    else some (.bTrans i (laneAt ((k - 0x8) / 4)), k % 4)
  else if off < 0x120 then
    let i := Fin.ofNat 4 ((off - 0x100) / 0x08)
    let k := off % 0x08
    some (.oCoef i (coefAt (k / 2)), k % 2)
  else none

/-- Offsets of the control registers (10_state.md R36). -/
def cmdOffset : Nat := 0x180
/-- See `cmdOffset`. -/
def statusOffset : Nat := 0x184
/-- See `cmdOffset`. -/
def causeOffset : Nat := 0x188
/-- See `cmdOffset`. -/
def ecmdOffset : Nat := 0x18C

/-- The byte lies in the mapped data region (20_memory.md R63). -/
def inData (off : Nat) : Bool := (locate off).isSome

/-- The byte lies in the control region, 0x180 .. 0x18F (20_memory.md R63). -/
def inControl (off : Nat) : Bool := decide (0x180 ≤ off) && decide (off < 0x190)

/-- The byte belongs to a read-only control register, CAUSE or ECMD (10_state.md R36). -/
def readOnly (off : Nat) : Bool := decide (0x188 ≤ off) && decide (off < 0x190)

/-- Byte `k` of a value, lowest first (20_memory.md R64). -/
def byteOf {w : Nat} (v : BitVec w) (k : Nat) : Byte := v.extractLsb' (8 * k) 8

/-- The value with byte `k`, lowest first, replaced (20_memory.md R64, R67). -/
def putByte {w : Nat} (v : BitVec w) (k : Nat) (x : Byte) : BitVec w :=
  (v &&& ~~~((0xFF#8).setWidth w <<< (8 * k))) ||| (x.setWidth w <<< (8 * k))

/-- A coefficient of a working matrix. -/
def WorkingMatrix.coef (w : WorkingMatrix) : Coef → Wide
  | .a => w.a | .b => w.b | .c => w.c | .d => w.d

/-- A coefficient of a background matrix. -/
def BgMatrix.coef (n : BgMatrix) : Coef → Narrow
  | .a => n.a | .b => n.b | .c => n.c | .d => n.d

/-- A coefficient of an object matrix. -/
def ObjMatrix.coef (n : ObjMatrix) : Coef → Narrow
  | .a => n.a | .b => n.b | .c => n.c | .d => n.d

/-- A lane of a working matrix's translation. -/
def WorkingMatrix.trans (w : WorkingMatrix) : Lane → Wide
  | .x => w.x | .y => w.y

/-- A lane of a background matrix's translation. -/
def BgMatrix.trans (n : BgMatrix) : Lane → Wide
  | .x => n.x | .y => n.y

/-- A lane of a vector. -/
def Vec2.lane (p : Vec2) : Lane → Wide
  | .x => p.x | .y => p.y

/-- The working matrix with one coefficient changed by `f`. -/
def WorkingMatrix.mapCoef (w : WorkingMatrix) (f : Wide → Wide) : Coef → WorkingMatrix
  | .a => { w with a := f w.a }
  | .b => { w with b := f w.b }
  | .c => { w with c := f w.c }
  | .d => { w with d := f w.d }

/-- The background matrix with one coefficient changed by `f`. -/
def BgMatrix.mapCoef (n : BgMatrix) (f : Narrow → Narrow) : Coef → BgMatrix
  | .a => { n with a := f n.a }
  | .b => { n with b := f n.b }
  | .c => { n with c := f n.c }
  | .d => { n with d := f n.d }

/-- The object matrix with one coefficient changed by `f`. -/
def ObjMatrix.mapCoef (n : ObjMatrix) (f : Narrow → Narrow) : Coef → ObjMatrix
  | .a => { n with a := f n.a }
  | .b => { n with b := f n.b }
  | .c => { n with c := f n.c }
  | .d => { n with d := f n.d }

/-- The working matrix with one translation lane changed by `f`. -/
def WorkingMatrix.mapTrans (w : WorkingMatrix) (f : Wide → Wide) : Lane → WorkingMatrix
  | .x => { w with x := f w.x }
  | .y => { w with y := f w.y }

/-- The background matrix with one translation lane changed by `f`. -/
def BgMatrix.mapTrans (n : BgMatrix) (f : Wide → Wide) : Lane → BgMatrix
  | .x => { n with x := f n.x }
  | .y => { n with y := f n.y }

/-- The vector with one lane changed by `f`. -/
def Vec2.mapLane (p : Vec2) (f : Wide → Wide) : Lane → Vec2
  | .x => { p with x := f p.x }
  | .y => { p with y := f p.y }

/-- Byte `k` of a field (20_memory.md R64). -/
def DataRegs.slotByte (r : DataRegs) (t : Slot) (k : Nat) : Byte :=
  match t with
  | .mCoef i f => byteOf ((r.m.get i).coef f) k
  | .mTrans i l => byteOf ((r.m.get i).trans l) k
  | .vLane i l => byteOf ((r.v.get i).lane l) k
  | .bCoef i f => byteOf ((r.b.get i).coef f) k
  | .bTrans i l => byteOf ((r.b.get i).trans l) k
  | .oCoef i f => byteOf ((r.o.get i).coef f) k

/-- The registers with byte `k` of a field replaced (20_memory.md R67). -/
def DataRegs.putSlotByte (r : DataRegs) (t : Slot) (k : Nat) (x : Byte) : DataRegs :=
  match t with
  | .mCoef i f => { r with m := r.m.set i ((r.m.get i).mapCoef (putByte · k x) f) }
  | .mTrans i l => { r with m := r.m.set i ((r.m.get i).mapTrans (putByte · k x) l) }
  | .vLane i l => { r with v := r.v.set i ((r.v.get i).mapLane (putByte · k x) l) }
  | .bCoef i f => { r with b := r.b.set i ((r.b.get i).mapCoef (putByte · k x) f) }
  | .bTrans i l => { r with b := r.b.set i ((r.b.get i).mapTrans (putByte · k x) l) }
  | .oCoef i f => { r with o := r.o.set i ((r.o.get i).mapCoef (putByte · k x) f) }

/-- The value a read of the control register at the 4-aligned offset `off` returns; CMD reads as zero (10_state.md R36). -/
def Control.valueAt (c : Control) (off : Nat) : Word :=
  if off = statusOffset then c.statusWord
  else if off = causeOffset then c.causeWord
  else if off = ecmdOffset then c.ecmd
  else 0

/-- The byte of the window at offset `off`, as a read shows it; `none` where nothing is mapped (20_memory.md R63, R64). THE read of
one byte: every wider access is built from it. -/
def State.readByte (s : State) (off : Nat) : Option Byte :=
  match locate off with
  | some (t, k) => some (s.regs.slotByte t k)
  | none => if inControl off then some (byteOf (s.ctl.valueAt (off - off % 4)) (off % 4)) else none

/-- The `n` bytes from offset `off` on, assembled little-endian (20_memory.md R64, R66); unmapped bytes never reach it (R65). -/
def State.readWindow (s : State) (off n : Nat) : Word :=
  wordOfBytes ((List.range n).map fun k => (s.readByte (off + k)).getD 0)

/-- The registers with the byte at offset `off` replaced; nothing outside the data region. -/
def DataRegs.writeByte (r : DataRegs) (off : Nat) (x : Byte) : DataRegs :=
  match locate off with
  | some (t, k) => r.putSlotByte t k x
  | none => r

/-- The `n` bytes from offset `off` on replaced by the low bytes of `v`, little-endian (20_memory.md R67). -/
def DataRegs.writeWindow (r : DataRegs) (off n : Nat) (v : Word) : DataRegs :=
  (List.range n).foldl (fun r k => r.writeByte (off + k) (byteOf v k)) r

/-- Every byte address of the transaction lies in the window: AME answers it (20_memory.md R61; log 15). -/
def inWindow (off n : Nat) : Bool := decide (off < Config.windowSize) && decide (off + n ≤ Config.windowSize)

/-- The admission checks, in the order of 20_memory.md R65 (1) to (5): size, alignment, all bytes mapped, control registers whole,
no write to CAUSE or ECMD. The alignment of the address is that of the offset, BASE being a multiple of 0x200 (R62). -/
def admitted (isWrite : Bool) (off n : Nat) : Bool :=
  (n == 1 || n == 2 || n == 4)
  && off % n == 0
  && (List.range n).all (fun k => inData (off + k) || inControl (off + k))
  && (!(List.range n).any (fun k => inControl (off + k)) || n == 4)
  && !(isWrite && (List.range n).any (fun k => readOnly (off + k)))

/-- The address on the host bus of an offset (20_memory.md R61: offset means addr − BASE). -/
def addrOf (off : Nat) : Nat := Config.base + off

/-- The offset of a bus address that AME answers, `none` for any other (20_memory.md R61). -/
def offsetOf (addr : Nat) : Option Nat :=
  if Config.base ≤ addr ∧ addr < Config.base + Config.windowSize then some (addr - Config.base) else none

end Sys2Proof.Machine
end

