-- ==== Sys2Proof/Machine/Bus.lean ====
section
/-! DEFINITION. What one host event does: MemRead and MemWrite (20_memory.md R66, R67), ExecuteCommand (30_encoding.md R97), reset
(70_reset_and_hazards.md R230). `s` is the state with the event already taken from the queue. -/

namespace Sys2Proof.Machine

/-- `ExecuteCommand(w)`: the decoded command's meaning, or IllegalCommand (30_encoding.md R97, R98). -/
def executeCommand (w : Word) (s : State) : Host.Outcome State Fault Refusal :=
  match decode w with
  | .ok i => exec i s
  | .error e => .next (s.raiseIllegal e w)

/-- `MemRead(BASE + off, n)`: the data, and nothing else changes; AccessFault when not admitted (20_memory.md R65, R66). -/
def memRead (off n : Nat) (s : State) : State :=
  if admitted false off n then s.respond (.okData (s.readWindow off n)) else s.respond .err

/-- `MemWrite(BASE + off, n, v)`: a command, a clearing of flags, or bytes of the data region; AccessFault when not admitted
(20_memory.md R65, R67). The response is OK whatever a command does (10_state.md R37). -/
def memWrite (off n : Nat) (v : Word) (s : State) : Host.Outcome State Fault Refusal :=
  if admitted true off n then
    if off = cmdOffset then executeCommand v (s.respond .ok)
    else if off = statusOffset then .next ((s.respond .ok).mapCtl (Control.clearFlags v))
    else .next { s.respond .ok with regs := s.regs.writeWindow off n v }
  else .next (s.respond .err)

/-- The reset: flags, CAUSE and ECMD zero, the data registers holding `data`; the host's queue stays, no response stands
(70_reset_and_hazards.md R230 to R232; logs 5 and 17). -/
def applyReset (data : DataRegs) (s : State) : State := ⟨data, Control.reset, ⟨s.port.pending, none⟩⟩

/-- One host event, whole and atomic (00_scope.md R13, 20_memory.md R70). A transaction that is not AME's is refused
(20_memory.md R61; 93_implementation_defined.md U7; log 8). -/
def perform (e : HostEvent) (s : State) : Host.Outcome State Fault Refusal :=
  match e with
  | .read off n => if inWindow off n then .next (memRead off n s) else .refused .outsideWindow
  | .write off n v => if inWindow off n then memWrite off n v s else .refused .outsideWindow
  | .reset data => .next (applyReset data s)

/-- The state with its queue of host events replaced. -/
def State.withPending (s : State) (q : List HostEvent) : State := { s with port := { s.port with pending := q } }

end Sys2Proof.Machine
end

