-- ==== Sys2Proof/Machine/Step.lean ====
section
/-! DEFINITION. The step: one host event (00_scope.md R12, R13). -/

namespace Sys2Proof.Machine

/-- One step: the oldest pending host event is taken and performed (20_memory.md R74). With none pending the machine idles and
keeps all its state (60_exceptions.md R218; log 2). -/
def step (s : State) : Host.Outcome State Fault Refusal :=
  match s.port.pending with
  | [] => .next s
  | e :: rest => perform e (s.withPending rest)

/-- `s` with the word of `w` (its low `nbits` bits) as the host's next write to CMD: AME fetches nothing, a command is the data of
such a write (10_state.md R30, R37). The events already pending come after it. Log 1. -/
def State.withFetchWord (s : State) (nbits w : Nat) : State :=
  s.withPending (.write cmdOffset 4 (BitVec.ofNat 32 (w % 2 ^ nbits)) :: s.port.pending)

end Sys2Proof.Machine
end

