-- ==== Sys2Proof/Safety.lean ====
section
/-! DEFINITION. The terms claims are written in: which commands can fail, which register a command writes, command sequences, and
what a consistent exception record is. -/

namespace Sys2Proof.Machine

/-- The commands that can raise Overflow (00_scope.md R11, "Fallible command"). -/
def fallible : Instr → Bool
  | .ident _ => false
  | .rot _ _ => false
  | .trn _ _ => false
  | .scl _ _ => false
  | .pos _ _ => false
  | .mul _ _ _ => false
  | .trybg _ _ => true
  | .tryobj _ _ => true
  | .wrpbg _ _ => false
  | .wrpobj _ _ => false
  | .widbg _ _ => false
  | .widobj _ _ => false
  | .bgsrp _ _ _ _ _ => true

/-- A data register, by file and index. -/
inductive Reg where
  | m (i : Idx)
  | v (i : Idx)
  | b (i : Idx)
  | o (i : Idx)
  deriving DecidableEq, Repr

/-- The destination register of a command (30_encoding.md R96, column RD). -/
def dest : Instr → Reg
  | .ident d => .m d
  | .rot d _ => .m d
  | .trn d _ => .m d
  | .scl d _ => .m d
  | .pos d _ => .v d
  | .mul d _ _ => .m d
  | .trybg d _ => .b d
  | .tryobj d _ => .o d
  | .wrpbg d _ => .b d
  | .wrpobj d _ => .o d
  | .widbg d _ => .m d
  | .widobj d _ => .m d
  | .bgsrp d _ _ _ _ => .b d

/-- The offset of a register's image in the window (20_memory.md R63). -/
def Reg.offset : Reg → Nat
  | .m i => 0x20 * i.val
  | .v i => 0x080 + 0x08 * i.val
  | .b i => 0x0C0 + 0x10 * i.val
  | .o i => 0x100 + 0x08 * i.val

/-- The size of a register's image in bytes (20_memory.md R63). -/
def Reg.size : Reg → Nat
  | .m _ => 24
  | .v _ => 8
  | .b _ => 16
  | .o _ => 8

/-- The offset lies in a register's image. -/
def Reg.covers (r : Reg) (off : Nat) : Prop := r.offset ≤ off ∧ off < r.offset + r.size

/-- The registers other than `r` hold the same in both (the frame of a command whose destination is `r`). -/
def SameExcept (r : Reg) (s t : DataRegs) : Prop :=
  (∀ i, r ≠ .m i → t.m.get i = s.m.get i) ∧ (∀ i, r ≠ .v i → t.v.get i = s.v.get i)
    ∧ (∀ i, r ≠ .b i → t.b.get i = s.b.get i) ∧ (∀ i, r ≠ .o i → t.o.get i = s.o.get i)

/-- What a command whose destination is `r` leaves alone when it raises nothing: the other registers, the control registers, the
host port (41_working_matrix.md, 42_narrow_widen.md: "Flags: none"). -/
def OnlyWrites (r : Reg) (s t : State) : Prop := SameExcept r s.regs t.regs ∧ t.ctl = s.ctl ∧ t.port = s.port

/-- As `OnlyWrites` for a fallible command that completes: of the control registers OVF alone changes, to 0 (10_state.md R33). -/
def CompletesInto (r : Reg) (s t : State) : Prop :=
  SameExcept r s.regs t.regs ∧ t.ctl = { s.ctl with ovf := false } ∧ t.port = s.port

/-- The state after `raise Overflow(info)` in the command with word `w` (60_exceptions.md R203), every field said: OVF, SOVF set,
CODE 1, INFO, ECMD, ILL kept, no data register, the port kept. -/
def OverflowRaised (info : BitVec 4) (w : Word) (s t : State) : Prop :=
  t.regs = s.regs ∧ t.ctl = ⟨true, true, s.ctl.ill, 1, info, w⟩ ∧ t.port = s.port

/-- The commands performed one after the other, stopping where one stops. -/
def execAll : List Instr → State → Host.Outcome State Fault Refusal
  | [], s => .next s
  | i :: is, s =>
    match exec i s with
    | .next t => execAll is t
    | .fault r => .fault r
    | .refused r => .refused r

/-- The event is a transaction AME answers, or a reset (20_memory.md R61). -/
def Answerable : HostEvent → Prop
  | .read off n => inWindow off n = true
  | .write off n _ => inWindow off n = true
  | .reset _ => True

/-- A safe run: every event still pending is one AME answers, so that no step of it is refused. -/
def SafeRun (s : State) : Prop := ∀ e ∈ s.port.pending, Answerable e

/-- The INFO values Overflow can report for a command: 0..3, and for BGSRP 0..5 (10_state.md R39; 60_exceptions.md R202). -/
def overflowInfo (i : Instr) (info : BitVec 4) : Prop :=
  match i with
  | .bgsrp _ _ _ _ _ => info ≤ 5
  | _ => fallible i = true ∧ info ≤ 3

/-- The exception record is consistent: it says no exception since reset and everything is clear, or an Overflow of the legal
fallible command whose word ECMD holds, or the illegality of the word ECMD holds, with the reason it has
(10_state.md R39, R40; 60_exceptions.md R200). -/
def ConsistentRecord (c : Control) : Prop :=
  (c = Control.reset)
  ∨ (c.code = 1 ∧ ∃ i, decode c.ecmd = .ok i ∧ overflowInfo i c.info)
  ∨ (c.code = 2 ∧ ∃ e, decode c.ecmd = .error e ∧ c.info = e.reason)

end Sys2Proof.Machine
end

