-- ==== Sys2Proof/Certificates/Slice0/Obligations.lean ====
section
/-! DEFINITION. The statements for the provers, in the order of the spec's rules. Each docstring names what it formalises. -/

open Sys2Proof Sys2Proof.Machine

/-! ### Fixed point (40_fixed_point.md) -/

/-- R122: `fxmul` is bits 39:8 of the exact 64-bit product, and is the product over 256 rounded toward minus infinity. -/
def Obligations.FxmulIsFlooredProductOver256 : Prop :=
  (∀ p q : Wide, fxmul p q = (BitVec.ofInt 64 (p.toInt * q.toInt)).extractLsb' 8 32)
  ∧ (∀ (p q : Wide) (k : Int), 256 * k ≤ p.toInt * q.toInt → p.toInt * q.toInt < 256 * (k + 1) → fxmul p q = BitVec.ofInt 32 k)

/-- R123, R124: addition and negation wrap modulo 2^32; sums may be taken in any order; the least value is its own negation. -/
def Obligations.FxaddFxnegWrapModulo : Prop :=
  (∀ p q : Wide, (fxadd p q).toNat = (p.toNat + q.toNat) % 2 ^ 32)
  ∧ (∀ p q : Wide, fxadd p q = fxadd q p)
  ∧ (∀ p q r : Wide, fxadd (fxadd p q) r = fxadd p (fxadd q r))
  ∧ (∀ p q : Wide, fxsub p q = fxadd p (fxneg q) ∧ fxadd (fxsub p q) q = p)
  ∧ (∀ p : Wide, fxadd p (fxneg p) = 0 ∧ fxneg (fxneg p) = p)
  ∧ fxneg 0x00000000 = 0x00000000 ∧ fxneg 0x80000000 = 0x80000000

/-- R131: the laws of `fxmul`, that it neither associates nor distributes, and the rule's values. -/
def Obligations.FxmulAlgebraicLaws : Prop :=
  (∀ p q : Wide, fxmul p q = fxmul q p)
  ∧ (∀ p : Wide, fxmul p 0x00000100 = p ∧ fxmul p 0x00000000 = 0 ∧ fxmul p 0xFFFFFF00 = fxneg p)
  ∧ fxmul (fxmul 0x00000080 0x00000001) 0x00000200 = 0x00000000
  ∧ fxmul 0x00000080 (fxmul 0x00000001 0x00000200) = 0x00000001
  ∧ (∃ p q r : Wide, fxmul p (fxadd q r) ≠ fxadd (fxmul p q) (fxmul p r))
  ∧ fxmul 0x00000180 0x00000180 = 0x00000240 ∧ fxmul 0xFFFFFE80 0x00000180 = 0xFFFFFDC0
  ∧ fxmul 0x000000FF 0x000000FF = 0x000000FE ∧ fxmul 0xFFFFFF01 0x000000FF = 0xFFFFFF01
  ∧ fxmul 0x7FFFFFFF 0x00000200 = 0xFFFFFFFE ∧ fxmul 0x00010000 0x00010000 = 0x01000000
  ∧ fxmul 0x01000000 0x01000000 = 0x00000000 ∧ fxmul 0x80000000 0x80000000 = 0x00000000

/-- R125: `fits8` accepts exactly the magnitudes below 128.0, both as signed integers and as the two ranges of raw patterns, and the
cut to 16 bits then loses nothing. -/
def Obligations.Fits8AcceptsMagnitudeBelow128 : Prop :=
  (∀ v : Wide, fits8 v = true ↔ -32768 < v.toInt ∧ v.toInt < 32768)
  ∧ (∀ v : Wide, fits8 v = true ↔ v ≤ 0x00007FFF ∨ 0xFFFF8001 ≤ v)
  ∧ (∀ v : Wide, fits8 v = true → (v.extractLsb' 0 16).signExtend 32 = v)

/-- R127: the table index is the angle modulo one turn with a non-negative result; lane y and the integer part have no effect. -/
def Obligations.AngleReducesModuloOneTurn : Prop :=
  ∀ v : Vec2, ((angleOf v).toNat : Int) = v.x.toInt % 256
    ∧ (∀ y : Wide, angleOf ⟨v.x, y⟩ = angleOf v)
    ∧ (∀ turns : Wide, angleOf ⟨v.x + turns <<< 8, v.y⟩ = angleOf v)

/-- The table is exact at the four pinned angles (R128, R129) and no entry has magnitude above 1.0 (R130). The sign at half a turn,
the other three pins and the bound are the spec's own choice (decision D13, "from general knowledge, not in source"). -/
def Obligations.TrigTablePinnedAndBounded : Prop :=
  (cosT 128 = 0xFFFFFF00 ∧ sinT 128 = 0x00000000)
  ∧ (cosT 0 = 0x00000100 ∧ sinT 0 = 0x00000000)
  ∧ (cosT 64 = 0x00000000 ∧ sinT 64 = 0x00000100)
  ∧ (cosT 192 = 0x00000000 ∧ sinT 192 = 0xFFFFFF00)
  ∧ (∀ k : BitVec 8, -256 ≤ (cosT k).toInt ∧ (cosT k).toInt ≤ 256 ∧ -256 ≤ (sinT k).toInt ∧ (sinT k).toInt ≤ 256)

/-! ### Working-matrix commands (41_working_matrix.md) -/

/-- R141: IDENT runs in every state, writes the identity to M[d], and changes nothing else. -/
def Obligations.IdentWritesIdentity : Prop :=
  ∀ (s : State) (d : Idx), opcOf (encode (.ident d)) = 0x01 ∧ ∃ t, exec (.ident d) s = .next t
    ∧ t.readM d = ⟨0x00000100, 0, 0, 0x00000100, 0, 0⟩ ∧ OnlyWrites (.m d) s t

/-- R142: ROT runs in every state and writes (cos, -sin, sin, cos, 0, 0) of the angle in V[a].x[7:0] to M[d]. -/
def Obligations.RotWritesRotation : Prop :=
  ∀ (s : State) (d a : Idx), opcOf (encode (.rot d a)) = 0x02 ∧ ∃ t, exec (.rot d a) s = .next t
    ∧ t.readM d = ⟨cosT ((s.readV a).x.extractLsb' 0 8), fxneg (sinT ((s.readV a).x.extractLsb' 0 8)),
        sinT ((s.readV a).x.extractLsb' 0 8), cosT ((s.readV a).x.extractLsb' 0 8), 0, 0⟩
    ∧ OnlyWrites (.m d) s t

/-- R143: TRN runs in every state and writes the identity's linear part with the negated position. -/
def Obligations.TrnWritesNegatedPosition : Prop :=
  ∀ (s : State) (d a : Idx), opcOf (encode (.trn d a)) = 0x03 ∧ ∃ t, exec (.trn d a) s = .next t
    ∧ t.readM d = ⟨0x00000100, 0, 0, 0x00000100, fxneg (s.readV a).x, fxneg (s.readV a).y⟩ ∧ OnlyWrites (.m d) s t

/-- R144: SCL runs in every state and stores the scale as given, whatever its range. -/
def Obligations.SclStoresScaleAsGiven : Prop :=
  ∀ (s : State) (d a : Idx), opcOf (encode (.scl d a)) = 0x04 ∧ ∃ t, exec (.scl d a) s = .next t
    ∧ t.readM d = ⟨(s.readV a).x, 0, 0, (s.readV a).y, 0, 0⟩ ∧ OnlyWrites (.m d) s t

/-- R145: POS runs in every state and writes the negated translation to V[d]; M[a] is not changed. -/
def Obligations.PosReadsNegatedTranslation : Prop :=
  ∀ (s : State) (d a : Idx), opcOf (encode (.pos d a)) = 0x05 ∧ ∃ t, exec (.pos d a) s = .next t
    ∧ t.readV d = ⟨fxneg (s.readM a).x, fxneg (s.readM a).y⟩ ∧ t.readM a = s.readM a ∧ OnlyWrites (.v d) s t

/-- R146, R147, R152: MUL runs in every state and for every combination of equal indices, and writes the six formulas of the OLD
sources to M[d]. -/
def Obligations.MulWritesProductOfOldSources : Prop :=
  ∀ (s : State) (d a b : Idx), opcOf (encode (.mul d a b)) = 0x06 ∧ ∃ t, exec (.mul d a b) s = .next t
    ∧ (let A := s.readM a
       let B := s.readM b
       t.readM d = ⟨fxadd (fxmul A.a B.a) (fxmul A.b B.c), fxadd (fxmul A.a B.b) (fxmul A.b B.d),
         fxadd (fxmul A.c B.a) (fxmul A.d B.c), fxadd (fxmul A.c B.b) (fxmul A.d B.d),
         fxadd (fxadd (fxmul A.a B.x) (fxmul A.b B.y)) A.x, fxadd (fxadd (fxmul A.c B.x) (fxmul A.d B.y)) A.y⟩)
    ∧ OnlyWrites (.m d) s t

/-- R148: the identity is neutral on both sides, bit for bit, for all 2^192 matrices. -/
def Obligations.IdentityIsNeutralForMatmul : Prop :=
  ∀ W : WorkingMatrix, matmul W ⟨0x00000100, 0, 0, 0x00000100, 0, 0⟩ = W ∧ matmul ⟨0x00000100, 0, 0, 0x00000100, 0, 0⟩ W = W

/-- `matmul` is not commutative (R150's example, which rests on the quarter turn pinned by decision D13) and does not associate in
general (95_test_vectors.md V-MUL-6). -/
def Obligations.MatmulNeitherCommutesNorAssociates : Prop :=
  (matmul (rotationMatrix 64) (scaleMatrix ⟨0x200, 0x300⟩) = ⟨0, 0xFFFFFD00, 0x00000200, 0, 0, 0⟩
    ∧ matmul (scaleMatrix ⟨0x200, 0x300⟩) (rotationMatrix 64) = ⟨0, 0xFFFFFE00, 0x00000300, 0, 0, 0⟩)
  ∧ (∃ A B C : WorkingMatrix, matmul (matmul A B) C ≠ matmul A (matmul B C))

/-- R151: the position of translation times W, and of W times translation, for every vector and every W. -/
def Obligations.PositionLawsOfMatmul : Prop :=
  ∀ (v : Vec2) (W : WorkingMatrix),
    positionOf (matmul (translationMatrix v) W) = ⟨fxneg (fxadd W.x (fxneg v.x)), fxneg (fxadd W.y (fxneg v.y))⟩
    ∧ (W.x = 0 → W.y = 0 → positionOf (matmul (translationMatrix v) W) = v)
    ∧ (matmul W (translationMatrix v)).x = fxadd (fxadd (fxmul W.a (fxneg v.x)) (fxmul W.b (fxneg v.y))) W.x

/-- 95_test_vectors.md S3: the half turn squared is the identity, as commands, whatever the registers. It rests on R128, whose sign is
the spec's own choice (decision D13). -/
def Obligations.HalfTurnSquaredIsIdentity : Prop :=
  ∀ (s : State) (d a e : Idx), (s.readV a).x.extractLsb' 0 8 = 0x80#8 →
    ∃ t, execAll [.rot d a, .mul e d d] s = .next t ∧ t.readM e = ⟨0x00000100, 0, 0, 0x00000100, 0, 0⟩

/-- 95_test_vectors.md S2 and S4, from R143, R145, R147, R151: TRN, a product with a matrix of zero translation, and POS give back
the position. -/
def Obligations.TranslationIsRecoveredThroughMul : Prop :=
  ∀ (s : State) (d a w e p : Idx), w ≠ d → (s.readM w).x = 0 → (s.readM w).y = 0 →
    ∃ t, execAll [.trn d a, .mul e d w, .pos p e] s = .next t ∧ t.readV p = s.readV a

/-! ### Conversions (42_narrow_widen.md) -/

/-- R164: TRYBG completes when the four coefficients fit, writing all six fields of B[d] and OVF <- 0; else it raises Overflow with
the first failing coefficient and writes no data register. -/
def Obligations.TrybgNarrowsOrRaisesOverflow : Prop :=
  (∀ (s : State) (d a : Idx), fits8 (s.readM a).a = true → fits8 (s.readM a).b = true → fits8 (s.readM a).c = true →
    fits8 (s.readM a).d = true → opcOf (encode (.trybg d a)) = 0x10 ∧ ∃ t, exec (.trybg d a) s = .next t
      ∧ t.readB d = ⟨(s.readM a).a.extractLsb' 0 16, (s.readM a).b.extractLsb' 0 16, (s.readM a).c.extractLsb' 0 16,
          (s.readM a).d.extractLsb' 0 16, (s.readM a).x, (s.readM a).y⟩
      ∧ CompletesInto (.b d) s t)
  ∧ (∀ (s : State) (d a : Idx) (info : BitVec 4),
      (info = 0 ∧ fits8 (s.readM a).a = false
        ∨ info = 1 ∧ fits8 (s.readM a).a = true ∧ fits8 (s.readM a).b = false
        ∨ info = 2 ∧ fits8 (s.readM a).a = true ∧ fits8 (s.readM a).b = true ∧ fits8 (s.readM a).c = false
        ∨ info = 3 ∧ fits8 (s.readM a).a = true ∧ fits8 (s.readM a).b = true ∧ fits8 (s.readM a).c = true
            ∧ fits8 (s.readM a).d = false) →
      ∃ t, exec (.trybg d a) s = .next t ∧ OverflowRaised info (encode (.trybg d a)) s t)

/-- R166: TRYOBJ, as TRYBG; the translation is neither tested nor stored. -/
def Obligations.TryobjNarrowsOrRaisesOverflow : Prop :=
  (∀ (s : State) (d a : Idx), fits8 (s.readM a).a = true → fits8 (s.readM a).b = true → fits8 (s.readM a).c = true →
    fits8 (s.readM a).d = true → opcOf (encode (.tryobj d a)) = 0x11 ∧ ∃ t, exec (.tryobj d a) s = .next t
      ∧ t.readO d = ⟨(s.readM a).a.extractLsb' 0 16, (s.readM a).b.extractLsb' 0 16, (s.readM a).c.extractLsb' 0 16,
          (s.readM a).d.extractLsb' 0 16⟩
      ∧ CompletesInto (.o d) s t)
  ∧ (∀ (s : State) (d a : Idx) (info : BitVec 4),
      (info = 0 ∧ fits8 (s.readM a).a = false
        ∨ info = 1 ∧ fits8 (s.readM a).a = true ∧ fits8 (s.readM a).b = false
        ∨ info = 2 ∧ fits8 (s.readM a).a = true ∧ fits8 (s.readM a).b = true ∧ fits8 (s.readM a).c = false
        ∨ info = 3 ∧ fits8 (s.readM a).a = true ∧ fits8 (s.readM a).b = true ∧ fits8 (s.readM a).c = true
            ∧ fits8 (s.readM a).d = false) →
      ∃ t, exec (.tryobj d a) s = .next t ∧ OverflowRaised info (encode (.tryobj d a)) s t)

/-- R165: WRPBG runs in every state, cuts the coefficients to 16 bits, copies x and y, and touches no flag. -/
def Obligations.WrpbgTruncatesCoefficients : Prop :=
  ∀ (s : State) (d a : Idx), opcOf (encode (.wrpbg d a)) = 0x12 ∧ ∃ t, exec (.wrpbg d a) s = .next t
    ∧ t.readB d = ⟨(s.readM a).a.extractLsb' 0 16, (s.readM a).b.extractLsb' 0 16, (s.readM a).c.extractLsb' 0 16,
        (s.readM a).d.extractLsb' 0 16, (s.readM a).x, (s.readM a).y⟩
    ∧ OnlyWrites (.b d) s t

/-- R167: WRPOBJ runs in every state, cuts the coefficients to 16 bits, drops x and y, and touches no flag. -/
def Obligations.WrpobjTruncatesCoefficients : Prop :=
  ∀ (s : State) (d a : Idx), opcOf (encode (.wrpobj d a)) = 0x13 ∧ ∃ t, exec (.wrpobj d a) s = .next t
    ∧ t.readO d = ⟨(s.readM a).a.extractLsb' 0 16, (s.readM a).b.extractLsb' 0 16, (s.readM a).c.extractLsb' 0 16,
        (s.readM a).d.extractLsb' 0 16⟩
    ∧ OnlyWrites (.o d) s t

/-- R168: WIDBG runs in every state, sign-extends the coefficients and copies x and y. -/
def Obligations.WidbgSignExtendsCoefficients : Prop :=
  ∀ (s : State) (d a : Idx), opcOf (encode (.widbg d a)) = 0x14 ∧ ∃ t, exec (.widbg d a) s = .next t
    ∧ t.readM d = ⟨(s.readB a).a.signExtend 32, (s.readB a).b.signExtend 32, (s.readB a).c.signExtend 32,
        (s.readB a).d.signExtend 32, (s.readB a).x, (s.readB a).y⟩
    ∧ OnlyWrites (.m d) s t

/-- R169: WIDOBJ runs in every state, sign-extends the coefficients and sets the translation to zero. -/
def Obligations.WidobjSignExtendsCoefficients : Prop :=
  ∀ (s : State) (d a : Idx), opcOf (encode (.widobj d a)) = 0x15 ∧ ∃ t, exec (.widobj d a) s = .next t
    ∧ t.readM d = ⟨(s.readO a).a.signExtend 32, (s.readO a).b.signExtend 32, (s.readO a).c.signExtend 32,
        (s.readO a).d.signExtend 32, 0, 0⟩
    ∧ OnlyWrites (.m d) s t

/-- R170: the two round trips from a working matrix whose coefficients fit, and the one from a background register, which fails
exactly when a coefficient is 0x8000. -/
def Obligations.NarrowWidenRoundTrips : Prop :=
  (∀ (s : State) (d a k : Idx), fits8 (s.readM a).a = true → fits8 (s.readM a).b = true → fits8 (s.readM a).c = true →
    fits8 (s.readM a).d = true →
      (∃ t u, exec (.trybg k a) s = .next t ∧ t.ctl.ovf = false ∧ exec (.widbg d k) t = .next u ∧ u.readM d = s.readM a)
      ∧ (∃ t u, exec (.tryobj k a) s = .next t ∧ t.ctl.ovf = false ∧ exec (.widobj d k) t = .next u
          ∧ u.readM d = ⟨(s.readM a).a, (s.readM a).b, (s.readM a).c, (s.readM a).d, 0, 0⟩))
  ∧ (∀ (s : State) (d j k : Idx), ∃ t, execAll [.widbg d k, .trybg j d] s = .next t
      ∧ (let n := s.readB k
         (n.a ≠ 0x8000 ∧ n.b ≠ 0x8000 ∧ n.c ≠ 0x8000 ∧ n.d ≠ 0x8000 → t.readB j = n ∧ t.ctl.ovf = false)
         ∧ (n.a = 0x8000 ∨ n.b = 0x8000 ∨ n.c = 0x8000 ∨ n.d = 0x8000 →
             t.regs.b = s.regs.b ∧ t.ctl.ovf = true ∧ t.ctl.code = 1)))

/-- R171: when a coefficient fails `fits8`, both fallible narrowings raise Overflow and write no data register, both wrapping
narrowings succeed with the truncated bits; and the boundary values. -/
def Obligations.OverflowBoundaryOfNarrowing : Prop :=
  (∀ (s : State) (d a : Idx),
    (fits8 (s.readM a).a && fits8 (s.readM a).b && fits8 (s.readM a).c && fits8 (s.readM a).d) = false →
      (∃ t, exec (.trybg d a) s = .next t ∧ t.regs = s.regs ∧ t.ctl.ovf = true ∧ t.ctl.sovf = true ∧ t.ctl.code = 1)
      ∧ (∃ t, exec (.tryobj d a) s = .next t ∧ t.regs = s.regs ∧ t.ctl.ovf = true ∧ t.ctl.sovf = true ∧ t.ctl.code = 1)
      ∧ (∃ t, exec (.wrpbg d a) s = .next t ∧ t.ctl = s.ctl ∧ (t.readB d).a = (s.readM a).a.extractLsb' 0 16
          ∧ (t.readB d).b = (s.readM a).b.extractLsb' 0 16 ∧ (t.readB d).c = (s.readM a).c.extractLsb' 0 16
          ∧ (t.readB d).d = (s.readM a).d.extractLsb' 0 16)
      ∧ (∃ t, exec (.wrpobj d a) s = .next t ∧ t.ctl = s.ctl ∧ (t.readO d).a = (s.readM a).a.extractLsb' 0 16
          ∧ (t.readO d).b = (s.readM a).b.extractLsb' 0 16 ∧ (t.readO d).c = (s.readM a).c.extractLsb' 0 16
          ∧ (t.readO d).d = (s.readM a).d.extractLsb' 0 16))
  ∧ fits8 0x00008000 = false ∧ fits8 0xFFFF8000 = false ∧ fits8 0x00007FFF = true ∧ fits8 0xFFFF8001 = true

/-! ### The composite (43_compose.md) -/

/-- R181: translation by the negated origin carries the origin itself. -/
def Obligations.TranslationByNegatedOriginCarriesOrigin : Prop :=
  ∀ o : Vec2, translationMatrix ⟨fxneg o.x, fxneg o.y⟩ = ⟨0x00000100, 0, 0, 0x00000100, o.x, o.y⟩

/-- R182: the closed form of the composite, on every input. -/
def Obligations.CompositeClosedForm : Prop :=
  ∀ (o p s : Vec2) (k : BitVec 8), composite o p s k =
    ⟨fxmul s.x (cosT k), fxmul s.x (fxneg (sinT k)), fxmul s.y (sinT k), fxmul s.y (cosT k),
     fxadd (fxadd (fxmul (fxmul s.x (cosT k)) (fxneg p.x)) (fxmul (fxmul s.x (fxneg (sinT k))) (fxneg p.y))) o.x,
     fxadd (fxadd (fxmul (fxmul s.y (sinT k)) (fxneg p.x)) (fxmul (fxmul s.y (cosT k)) (fxneg p.y))) o.y⟩

/-- R183, its clause on the linear part: all five bracketings of the four factors give the same linear part. -/
def Obligations.CompositeLinearPartBracketsAlike : Prop :=
  ∀ (o p s : Vec2) (k : BitVec 8),
    let T1 : WorkingMatrix := ⟨0x00000100, 0, 0, 0x00000100, o.x, o.y⟩
    let S := scaleMatrix s
    let R := rotationMatrix k
    let T2 := translationMatrix p
    let linear := fun W : WorkingMatrix => (W.a, W.b, W.c, W.d)
    linear (composite o p s k) = linear (matmul (matmul T1 S) (matmul R T2))
    ∧ linear (composite o p s k) = linear (matmul (matmul T1 (matmul S R)) T2)
    ∧ linear (composite o p s k) = linear (matmul T1 (matmul (matmul S R) T2))
    ∧ linear (composite o p s k) = linear (matmul T1 (matmul S (matmul R T2)))

/-- R180: BGSRP, whole. When both scale lanes fit it completes, writing the composite (in R182's closed form), narrowed, to B[d] and
OVF <- 0; nothing else changes, no M or V register among it. Otherwise it raises Overflow with 4 or 5, lane x first. That it always
completes when the lanes fit, the four coefficient tests never failing (R185), rests on the bound on TRIG of R130, which is the spec's
own choice (decision D13) and which the model's table keeps by its type (log 6). -/
def Obligations.BgsrpComposesAndNarrows : Prop :=
  (∀ (s : State) (d a b c e : Idx), fits8 (s.readV c).x = true → fits8 (s.readV c).y = true →
    opcOf (encode (.bgsrp d a b c e)) = 0x20 ∧ ∃ t, exec (.bgsrp d a b c e) s = .next t
      ∧ (let o := s.readV a
         let p := s.readV b
         let sc := s.readV c
         let cs := cosT ((s.readV e).x.extractLsb' 0 8)
         let sn := sinT ((s.readV e).x.extractLsb' 0 8)
         let wa := fxmul sc.x cs
         let wb := fxmul sc.x (fxneg sn)
         let wc := fxmul sc.y sn
         let wd := fxmul sc.y cs
         t.readB d = ⟨wa.extractLsb' 0 16, wb.extractLsb' 0 16, wc.extractLsb' 0 16, wd.extractLsb' 0 16,
           fxadd (fxadd (fxmul wa (fxneg p.x)) (fxmul wb (fxneg p.y))) o.x,
           fxadd (fxadd (fxmul wc (fxneg p.x)) (fxmul wd (fxneg p.y))) o.y⟩
         ∧ wa.toInt = (wa.extractLsb' 0 16).toInt ∧ wb.toInt = (wb.extractLsb' 0 16).toInt
         ∧ wc.toInt = (wc.extractLsb' 0 16).toInt ∧ wd.toInt = (wd.extractLsb' 0 16).toInt)
      ∧ CompletesInto (.b d) s t)
  ∧ (∀ (s : State) (d a b c e : Idx), fits8 (s.readV c).x = false →
      ∃ t, exec (.bgsrp d a b c e) s = .next t ∧ OverflowRaised 4 (encode (.bgsrp d a b c e)) s t)
  ∧ (∀ (s : State) (d a b c e : Idx), fits8 (s.readV c).x = true → fits8 (s.readV c).y = false →
      ∃ t, exec (.bgsrp d a b c e) s = .next t ∧ OverflowRaised 5 (encode (.bgsrp d a b c e)) s t)

/-- R184: a scale lane that does not fit raises Overflow(4) or Overflow(5), lane x first; one that fits equals the sign extension of
its low 16 bits. -/
def Obligations.BgsrpRaisesOverflowOnUnfitScale : Prop :=
  (∀ (s : State) (d a b c e : Idx) (info : BitVec 4),
    (info = 4 ∧ fits8 (s.readV c).x = false ∨ info = 5 ∧ fits8 (s.readV c).x = true ∧ fits8 (s.readV c).y = false) →
      ∃ t, exec (.bgsrp d a b c e) s = .next t ∧ OverflowRaised info (encode (.bgsrp d a b c e)) s t)
  ∧ (∀ v : Wide, fits8 v = true → v = (v.extractLsb' 0 16).signExtend 32)

/-- R188: for a scale that fits, BGSRP leaves in B[d] and OVF what the eight commands leave, run with the negated origin in a scratch
vector register that is none of the later sources; and it changes no M or V register. -/
def Obligations.BgsrpEqualsItsCommandSequence : Prop :=
  ∀ (s : State) (d a b c e v : Idx), v ≠ b → v ≠ c → v ≠ e → fits8 (s.readV c).x = true → fits8 (s.readV c).y = true →
    ∃ t u, execAll [.trn 0 v, .scl 1 c, .rot 2 e, .trn 3 b, .mul 0 0 1, .mul 0 0 2, .mul 0 0 3, .trybg d 0]
          (s.writeV v ⟨fxneg (s.readV a).x, fxneg (s.readV a).y⟩) = .next t
      ∧ exec (.bgsrp d a b c e) s = .next u
      ∧ t.readB d = u.readB d ∧ t.ctl.ovf = u.ctl.ovf ∧ u.regs.m = s.regs.m ∧ u.regs.v = s.regs.v

/-! ### All commands: frames and independence -/

/-- The frame of every command, from the "Flags" and "Exceptions" entries of its rule, R32, R201, R203: registers other than the
destination, the port and ILL never change; a command that is not fallible changes no control register; a fallible one completes,
or raises Overflow and leaves every data register. -/
def Obligations.CommandRegisterFrame : Prop :=
  ∀ (i : Instr) (s t : State), exec i s = .next t →
    SameExcept (dest i) s.regs t.regs ∧ t.port = s.port ∧ t.ctl.ill = s.ctl.ill
    ∧ (fallible i = false → t.ctl = s.ctl)
    ∧ (fallible i = true → CompletesInto (dest i) s t ∨ ∃ info, overflowInfo i info ∧ OverflowRaised info (encode i) s t)

/-- The frame in bytes: every byte of the window outside the destination register's image and outside the control region reads as
before; and the control bytes too unless the command is fallible. -/
def Obligations.CommandByteFrame : Prop :=
  ∀ (i : Instr) (s t : State), exec i s = .next t → ∀ off : Nat, ¬ (dest i).covers off →
    (inControl off = false ∨ fallible i = false) → t.readByte off = s.readByte off

/-- R32: no command reads a flag (nor CAUSE, ECMD or the host's queue): what it does to the data registers and to OVF is the same
whatever they hold. -/
def Obligations.CommandsReadNoControlState : Prop :=
  ∀ (i : Instr) (s : State) (c : Control) (q : Port), ∃ t u, exec i s = .next t ∧ exec i ⟨s.regs, c, q⟩ = .next u
    ∧ t.regs = u.regs ∧ (fallible i = true → t.ctl.ovf = u.ctl.ovf)

/-! ### Encoding (30_encoding.md) -/

/-- R103: the worked encodings, decoded. -/
def Obligations.WorkedEncodingsDecode : Prop :=
  decode 0x01000000 = .ok (.ident 0) ∧ decode 0x01300000 = .ok (.ident 3) ∧ decode 0x02110000 = .ok (.rot 1 1)
  ∧ decode 0x03000000 = .ok (.trn 0 0) ∧ decode 0x04230000 = .ok (.scl 2 3) ∧ decode 0x05320000 = .ok (.pos 3 2)
  ∧ decode 0x06201000 = .ok (.mul 2 0 1) ∧ decode 0x06001000 = .ok (.mul 0 0 1) ∧ decode 0x10020000 = .ok (.trybg 0 2)
  ∧ decode 0x11310000 = .ok (.tryobj 3 1) ∧ decode 0x12120000 = .ok (.wrpbg 1 2) ∧ decode 0x13000000 = .ok (.wrpobj 0 0)
  ∧ decode 0x14310000 = .ok (.widbg 3 1) ∧ decode 0x15020000 = .ok (.widobj 0 2)
  ∧ decode 0x20101230 = .ok (.bgsrp 1 0 1 2 3)
  ∧ decode 0x01000001 = .error .badField ∧ decode 0x01400000 = .error .badField ∧ decode 0x01010000 = .error .badField
  ∧ decode 0x06201100 = .error .badField
  ∧ decode 0x00000000 = .error .unknownOpcode ∧ decode 0x07000000 = .error .unknownOpcode
  ∧ decode 0x16000000 = .error .unknownOpcode ∧ decode 0x21000000 = .error .unknownOpcode
  ∧ decode 0xFFFFFFFF = .error .unknownOpcode

/-- R92, R96: a word is a legal instance of a command exactly when it has the command's match value under its mask, row by row. -/
def Obligations.LegalInstancesAreMaskMatches : Prop :=
  ∀ w : Word,
    ((∃ d, decode w = .ok (.ident d)) ↔ w &&& 0xFFCFFFFF = 0x01000000)
    ∧ ((∃ d a, decode w = .ok (.rot d a)) ↔ w &&& 0xFFCCFFFF = 0x02000000)
    ∧ ((∃ d a, decode w = .ok (.trn d a)) ↔ w &&& 0xFFCCFFFF = 0x03000000)
    ∧ ((∃ d a, decode w = .ok (.scl d a)) ↔ w &&& 0xFFCCFFFF = 0x04000000)
    ∧ ((∃ d a, decode w = .ok (.pos d a)) ↔ w &&& 0xFFCCFFFF = 0x05000000)
    ∧ ((∃ d a b, decode w = .ok (.mul d a b)) ↔ w &&& 0xFFCCCFFF = 0x06000000)
    ∧ ((∃ d a, decode w = .ok (.trybg d a)) ↔ w &&& 0xFFCCFFFF = 0x10000000)
    ∧ ((∃ d a, decode w = .ok (.tryobj d a)) ↔ w &&& 0xFFCCFFFF = 0x11000000)
    ∧ ((∃ d a, decode w = .ok (.wrpbg d a)) ↔ w &&& 0xFFCCFFFF = 0x12000000)
    ∧ ((∃ d a, decode w = .ok (.wrpobj d a)) ↔ w &&& 0xFFCCFFFF = 0x13000000)
    ∧ ((∃ d a, decode w = .ok (.widbg d a)) ↔ w &&& 0xFFCCFFFF = 0x14000000)
    ∧ ((∃ d a, decode w = .ok (.widobj d a)) ↔ w &&& 0xFFCCFFFF = 0x15000000)
    ∧ ((∃ d a b c e, decode w = .ok (.bgsrp d a b c e)) ↔ w &&& 0xFFCCCCCF = 0x20000000)

/-- R98: the words the decoder rejects, by reason, against the prose of the rule (`Fields.wellFormed`). -/
def Obligations.IllegalWordsByReason : Prop :=
  ∀ w : Word,
    (decode w = .error .unknownOpcode ↔
      opcOf w ∉ [0x01, 0x02, 0x03, 0x04, 0x05, 0x06, 0x10, 0x11, 0x12, 0x13, 0x14, 0x15, 0x20#8])
    ∧ (decode w = .error .badField ↔
      opcOf w ∈ [0x01, 0x02, 0x03, 0x04, 0x05, 0x06, 0x10, 0x11, 0x12, 0x13, 0x14, 0x15, 0x20#8]
        ∧ (Fields.ofWord w).wellFormed = false)
    ∧ ((∃ i, decode w = .ok i) ↔ (Fields.ofWord w).wellFormed = true)

/-- R96, R97, R101: decoding and encoding agree in both directions: a word decodes to a command exactly when it is that command's
word, over all 2^32 words and every operand. -/
def Obligations.DecodeAndEncodeAgree : Prop :=
  ∀ (w : Word) (i : Instr), decode w = .ok i ↔ w = encode i

/-! ### The window (20_memory.md) -/

/-- R61, R62: BASE is a multiple of 0x200, an address is aligned as its offset is, every background image starts at a multiple of
16, and the addresses AME answers are those of the window. -/
def Obligations.WindowBaseAndAlignment : Prop :=
  Config.base % 0x200 = 0
  ∧ (∀ off n : Nat, n = 1 ∨ n = 2 ∨ n = 4 → addrOf off % n = off % n)
  ∧ (∀ i : Idx, addrOf (0x0C0 + 0x10 * i.val) % 16 = 0)
  ∧ (∀ addr off : Nat, offsetOf addr = some off ↔ addr = Config.base + off ∧ off < 0x200)

/-- R63, R64: the byte at each offset of the window is the byte of the field the map places there, little-endian; every other byte
is unmapped. -/
def Obligations.WindowMapOfRegisters : Prop :=
  ∀ (s : State) (i : Idx),
    (∀ k < 4,
      s.readByte (0x20 * i.val + k) = some ((s.readM i).a.extractLsb' (8 * k) 8)
      ∧ s.readByte (0x20 * i.val + 0x04 + k) = some ((s.readM i).b.extractLsb' (8 * k) 8)
      ∧ s.readByte (0x20 * i.val + 0x08 + k) = some ((s.readM i).c.extractLsb' (8 * k) 8)
      ∧ s.readByte (0x20 * i.val + 0x0C + k) = some ((s.readM i).d.extractLsb' (8 * k) 8)
      ∧ s.readByte (0x20 * i.val + 0x10 + k) = some ((s.readM i).x.extractLsb' (8 * k) 8)
      ∧ s.readByte (0x20 * i.val + 0x14 + k) = some ((s.readM i).y.extractLsb' (8 * k) 8)
      ∧ s.readByte (0x080 + 0x08 * i.val + k) = some ((s.readV i).x.extractLsb' (8 * k) 8)
      ∧ s.readByte (0x080 + 0x08 * i.val + 0x4 + k) = some ((s.readV i).y.extractLsb' (8 * k) 8)
      ∧ s.readByte (0x0C0 + 0x10 * i.val + 0x8 + k) = some ((s.readB i).x.extractLsb' (8 * k) 8)
      ∧ s.readByte (0x0C0 + 0x10 * i.val + 0xC + k) = some ((s.readB i).y.extractLsb' (8 * k) 8)
      ∧ s.readByte (0x180 + k) = some 0
      ∧ s.readByte (0x184 + k) = some (s.ctl.statusWord.extractLsb' (8 * k) 8)
      ∧ s.readByte (0x188 + k) = some (s.ctl.causeWord.extractLsb' (8 * k) 8)
      ∧ s.readByte (0x18C + k) = some (s.ctl.ecmd.extractLsb' (8 * k) 8))
    ∧ (∀ k < 2,
      s.readByte (0x0C0 + 0x10 * i.val + k) = some ((s.readB i).a.extractLsb' (8 * k) 8)
      ∧ s.readByte (0x0C0 + 0x10 * i.val + 0x2 + k) = some ((s.readB i).b.extractLsb' (8 * k) 8)
      ∧ s.readByte (0x0C0 + 0x10 * i.val + 0x4 + k) = some ((s.readB i).c.extractLsb' (8 * k) 8)
      ∧ s.readByte (0x0C0 + 0x10 * i.val + 0x6 + k) = some ((s.readB i).d.extractLsb' (8 * k) 8)
      ∧ s.readByte (0x100 + 0x08 * i.val + k) = some ((s.readO i).a.extractLsb' (8 * k) 8)
      ∧ s.readByte (0x100 + 0x08 * i.val + 0x2 + k) = some ((s.readO i).b.extractLsb' (8 * k) 8)
      ∧ s.readByte (0x100 + 0x08 * i.val + 0x4 + k) = some ((s.readO i).c.extractLsb' (8 * k) 8)
      ∧ s.readByte (0x100 + 0x08 * i.val + 0x6 + k) = some ((s.readO i).d.extractLsb' (8 * k) 8))
    ∧ (∀ off, (off < 0x080 ∧ 0x18 ≤ off % 0x20 ∨ 0x0A0 ≤ off ∧ off < 0x0C0 ∨ 0x120 ≤ off ∧ off < 0x180 ∨ 0x190 ≤ off) →
      s.readByte off = none)

/-- R65: the five admission conditions, on the bus address; and an admitted transaction lies wholly in mapped data or is one whole
control register. -/
def Obligations.AdmissionConditions : Prop :=
  ∀ (isWrite : Bool) (off n : Nat),
    (admitted isWrite off n = true ↔
      (n = 1 ∨ n = 2 ∨ n = 4) ∧ addrOf off % n = 0
      ∧ (∀ (s : State), ∀ k < n, s.readByte (off + k) ≠ none)
      ∧ ((∃ k < n, 0x180 ≤ off + k ∧ off + k < 0x190) → n = 4)
      ∧ (isWrite = true → ¬ ∃ k < n, 0x188 ≤ off + k ∧ off + k < 0x190))
    ∧ (admitted isWrite off n = true →
      (∀ k < n, inData (off + k) = true) ∨ (n = 4 ∧ (off = 0x180 ∨ off = 0x184 ∨ off = 0x188 ∨ off = 0x18C)))

/-- R205: a transaction in the window that is not admitted (AdmissionConditions says when) gets ERR, no data, and changes no bit of
AME; an admitted one never gets ERR (the queue and the recorded response are the model's own fields, logs 1 and 3). -/
def Obligations.RejectedTransactionChangesNothing : Prop :=
  ∀ (s : State) (off n : Nat) (v : Word) (rest : List HostEvent), inWindow off n = true →
    (s.port.pending = .read off n :: rest → admitted false off n = false →
      step s = .next ⟨s.regs, s.ctl, ⟨rest, some .err⟩⟩)
    ∧ (s.port.pending = .write off n v :: rest → admitted true off n = false →
      step s = .next ⟨s.regs, s.ctl, ⟨rest, some .err⟩⟩)
    ∧ (s.port.pending = .read off n :: rest → admitted false off n = true →
      ∃ t, step s = .next t ∧ t.port.response ≠ some .err)
    ∧ (s.port.pending = .write off n v :: rest → admitted true off n = true →
      ∃ t, step s = .next t ∧ t.port.response ≠ some .err)

/-- R66: an admitted read returns the bytes at its offsets, little-endian, and changes nothing (the queue and the recorded response
are the model's own fields, logs 1 and 3; so are the zero bits above the bytes read, log 12). -/
def Obligations.ReadReturnsBytesAndChangesNothing : Prop :=
  ∀ (s : State) (off n : Nat) (rest : List HostEvent), s.port.pending = .read off n :: rest → admitted false off n = true →
    ∃ v : Word, step s = .next ⟨s.regs, s.ctl, ⟨rest, some (.okData v)⟩⟩
      ∧ (∀ k < n, s.readByte (off + k) = some (v.extractLsb' (8 * k) 8)) ∧ v.toNat < 2 ^ (8 * n)

/-- R36: what a read of each control register returns; R41: the reserved bits of STATUS and CAUSE read as zero in every state
(the queue and the recorded response are the model's own fields, logs 1 and 3). -/
def Obligations.ControlRegisterReadValues : Prop :=
  ∀ (s : State) (rest : List HostEvent),
    (s.port.pending = .read 0x180 4 :: rest → step s = .next ⟨s.regs, s.ctl, ⟨rest, some (.okData 0)⟩⟩)
    ∧ (s.port.pending = .read 0x184 4 :: rest → ∃ v, step s = .next ⟨s.regs, s.ctl, ⟨rest, some (.okData v)⟩⟩
        ∧ v.getLsbD 0 = s.ctl.ovf ∧ v.getLsbD 1 = s.ctl.sovf ∧ v.getLsbD 2 = s.ctl.ill ∧ v >>> 3 = 0)
    ∧ (s.port.pending = .read 0x188 4 :: rest → ∃ v, step s = .next ⟨s.regs, s.ctl, ⟨rest, some (.okData v)⟩⟩
        ∧ v.extractLsb' 0 4 = s.ctl.code ∧ v.extractLsb' 4 4 = s.ctl.info ∧ v >>> 8 = 0)
    ∧ (s.port.pending = .read 0x18C 4 :: rest → step s = .next ⟨s.regs, s.ctl, ⟨rest, some (.okData s.ctl.ecmd)⟩⟩)

/-- R67, the data region: an admitted write replaces exactly the addressed bytes by the bytes of the value, little-endian; every
other byte of the window and every control register stays (the queue and the recorded response are the model's own fields, logs 1 and 3). -/
def Obligations.DataWriteReplacesAddressedBytes : Prop :=
  ∀ (s : State) (off n : Nat) (v : Word) (rest : List HostEvent), s.port.pending = .write off n v :: rest →
    admitted true off n = true → off < 0x180 →
      ∃ t, step s = .next t ∧ t.ctl = s.ctl ∧ t.port = ⟨rest, some .ok⟩
        ∧ (∀ k < n, t.readByte (off + k) = some (v.extractLsb' (8 * k) 8))
        ∧ (∀ o, ¬ (off ≤ o ∧ o < off + n) → t.readByte o = s.readByte o)

/-- R67, R66, R74: a read right after a data write of the same bytes returns the value written (the queue and the recorded response
are the model's own fields, logs 1 and 3; so are the zero bits above the bytes read, log 12). -/
def Obligations.ReadAfterWriteReturnsValue : Prop :=
  ∀ (s : State) (off n : Nat) (v : Word) (rest : List HostEvent), s.port.pending = .write off n v :: .read off n :: rest →
    admitted true off n = true → off < 0x180 →
      ∃ t u, step s = .next t ∧ step t = .next u ∧ u.port = ⟨rest, some (.okData (BitVec.ofNat 32 (v.toNat % 2 ^ (8 * n))))⟩
        ∧ u.regs = t.regs

/-- R69: reads have no side effect and may be repeated, data writes and STATUS writes are idempotent, and a CMD write is not: MUL changes its own operand. -/
def Obligations.RepeatedTransactions : Prop :=
  (∀ (s : State) (off n : Nat), memRead off n (memRead off n s) = memRead off n s ∧ (memRead off n s).regs = s.regs
      ∧ (memRead off n s).ctl = s.ctl)
  ∧ (∀ (r : DataRegs) (off n : Nat) (v : Word), admitted true off n = true →
      (r.writeWindow off n v).writeWindow off n v = r.writeWindow off n v)
  ∧ (∀ (c : Control) (v : Word), (c.clearFlags v).clearFlags v = c.clearFlags v)
  ∧ (∃ (s t u : State), executeCommand 0x06000000 s = .next t ∧ executeCommand 0x06000000 t = .next u ∧ t.regs ≠ u.regs)

/-- R71: mixed widths, the rule's two examples, in every state. -/
def Obligations.MixedWidthReads : Prop :=
  ∀ s : State, s.readWindow 0x0C0 4 = (s.readB 0).b ++ (s.readB 0).a
    ∧ s.readWindow 0x0CA 2 = ((s.readB 0).x.extractLsb' 16 16).setWidth 32

/-- R80: the sixteen bytes of a background register and the eight of an object register, in ascending order, are the document's
layout. -/
def Obligations.ParameterBlockImages : Prop :=
  ∀ (s : State) (i : Idx),
    (List.range 16).map (fun k => s.readByte (0x0C0 + 0x10 * i.val + k)) =
      (let n := s.readB i
       [n.a.extractLsb' 0 8, n.a.extractLsb' 8 8, n.b.extractLsb' 0 8, n.b.extractLsb' 8 8,
        n.c.extractLsb' 0 8, n.c.extractLsb' 8 8, n.d.extractLsb' 0 8, n.d.extractLsb' 8 8,
        n.x.extractLsb' 0 8, n.x.extractLsb' 8 8, n.x.extractLsb' 16 8, n.x.extractLsb' 24 8,
        n.y.extractLsb' 0 8, n.y.extractLsb' 8 8, n.y.extractLsb' 16 8, n.y.extractLsb' 24 8]).map some
    ∧ (List.range 8).map (fun k => s.readByte (0x100 + 0x08 * i.val + k)) =
      (let n := s.readO i
       [n.a.extractLsb' 0 8, n.a.extractLsb' 8 8, n.b.extractLsb' 0 8, n.b.extractLsb' 8 8,
        n.c.extractLsb' 0 8, n.c.extractLsb' 8 8, n.d.extractLsb' 0 8, n.d.extractLsb' 8 8]).map some

/-! ### The step, flags and exceptions (10_state.md, 60_exceptions.md) -/

/-- R37, R97: a step whose transaction writes a command's word to CMD is that command's meaning, with the transaction taken from the
queue and answered OK (the queue and the response are the model's own fields, logs 1 and 3). -/
def Obligations.StepRunsDecodedCommand : Prop :=
  ∀ (s : State) (w : Word) (i : Instr) (rest : List HostEvent), s.port.pending = .write 0x180 4 w :: rest → decode w = .ok i →
    step s = exec i ⟨s.regs, s.ctl, ⟨rest, some .ok⟩⟩

/-- R204: an illegal word written to CMD sets ILL, CAUSE and ECMD, keeps OVF and SOVF, writes no data register, and is answered OK (the
queue and the recorded response are the model's own fields, logs 1 and 3). -/
def Obligations.IllegalWordIsRecorded : Prop :=
  (∀ (s : State) (w : Word) (e : DecodeError) (rest : List HostEvent), s.port.pending = .write 0x180 4 w :: rest →
    decode w = .error e →
      step s = .next ⟨s.regs, ⟨s.ctl.ovf, s.ctl.sovf, true, 2, e.reason, w⟩, ⟨rest, some .ok⟩⟩)
  ∧ DecodeError.unknownOpcode.reason = 0 ∧ DecodeError.badField.reason = 1

/-- R38: a write to STATUS clears SOVF and ILL where bits 1 and 2 of the value are set, and does nothing else; the places of the three
flags in the register, the rest reading as zero (the queue and the recorded response are the model's own fields, logs 1 and 3). -/
def Obligations.StatusWriteClearsStickyFlags : Prop :=
  (∀ (s : State) (v : Word) (rest : List HostEvent), s.port.pending = .write 0x184 4 v :: rest →
    step s = .next ⟨s.regs, { s.ctl with sovf := s.ctl.sovf && !v.getLsbD 1, ill := s.ctl.ill && !v.getLsbD 2 },
      ⟨rest, some .ok⟩⟩)
  ∧ (∀ s : State, s.readWindow 0x184 4 = BitVec.ofNat 32 (s.ctl.ovf.toNat + 2 * s.ctl.sovf.toNat + 4 * s.ctl.ill.toNat))

/-- R34, R35: SOVF and ILL are sticky: a step that clears one performs a reset or a STATUS write with its bit set. -/
def Obligations.StickyFlagsClearedOnlyByHost : Prop :=
  ∀ (s t : State), step s = .next t →
    (s.ctl.sovf = true → t.ctl.sovf = false → (∃ data rest, s.port.pending = .reset data :: rest)
      ∨ ∃ v rest, s.port.pending = .write 0x184 4 v :: rest ∧ v.getLsbD 1 = true)
    ∧ (s.ctl.ill = true → t.ctl.ill = false → (∃ data rest, s.port.pending = .reset data :: rest)
      ∨ ∃ v rest, s.port.pending = .write 0x184 4 v :: rest ∧ v.getLsbD 2 = true)

/-- R33: OVF changes only by a reset or by a fallible command. -/
def Obligations.OvfWrittenOnlyByFallibleCommands : Prop :=
  ∀ (s t : State), step s = .next t → t.ctl.ovf ≠ s.ctl.ovf →
    (∃ data rest, s.port.pending = .reset data :: rest)
    ∨ ∃ w rest i, s.port.pending = .write 0x180 4 w :: rest ∧ decode w = .ok i ∧ fallible i = true

/-- R39, R40: CAUSE and ECMD change only by a reset or by a CMD write that raises, which puts its own word in ECMD. -/
def Obligations.ExceptionRecordWrittenOnlyByRaise : Prop :=
  ∀ (s t : State), step s = .next t → (t.ctl.code, t.ctl.info, t.ctl.ecmd) ≠ (s.ctl.code, s.ctl.info, s.ctl.ecmd) →
    (∃ data rest, s.port.pending = .reset data :: rest)
    ∨ ∃ w rest, s.port.pending = .write 0x180 4 w :: rest ∧ t.ctl.ecmd = w ∧ t.regs = s.regs
        ∧ (t.ctl.code = 1 ∧ t.ctl.ovf = true ∧ t.ctl.sovf = true ∨ t.ctl.code = 2 ∧ t.ctl.ill = true)

/-- R13, R31, R74: a step takes exactly the oldest pending event, and nothing AME answers halts it: while every pending event is one
AME answers, a step gives a next state of which the same holds. Three parts are the model's own and no rule of the spec: that the
host's transactions are a queue in the state (DESIGN CHOICE, log 1); that a step with an empty queue leaves the state as it is
(DEDUCED, log 2), which the first clause takes in; that a reset keeps the later events pending (DESIGN CHOICE, log 17), which both
clauses take in. -/
def Obligations.AnswerableRunsNeverStop : Prop :=
  (∀ s : State, SafeRun s → ∃ t, step s = .next t ∧ SafeRun t)
  ∧ (∀ (s t : State) (e : HostEvent) (rest : List HostEvent), s.port.pending = e :: rest → step s = .next t →
      t.port.pending = rest)

/-- R61: the only stop of a step is the refusal of a transaction that is not wholly in the window; the refusal is the
model's form of it (DEDUCED, logs 8 and 15). -/
def Obligations.OnlyForeignTransactionsAreRefused : Prop :=
  ∀ (s : State) (r : Refusal), step s = .refused r →
    r = .outsideWindow ∧ ∃ e rest, s.port.pending = e :: rest ∧ ¬ Answerable e

/-- R39, R40, R200: the exception record stays consistent: from every state where CAUSE and ECMD say a true thing, a step gives one
where they do. -/
def Obligations.ExceptionRecordStaysConsistent : Prop :=
  ∀ (s t : State), ConsistentRecord s.ctl → step s = .next t → ConsistentRecord t.ctl

/-! ### Reset (70_reset_and_hazards.md) -/

/-- R230, R231, R232: a reset leaves STATUS, CAUSE and ECMD zero and the data registers holding RESET_DATA, whatever it is and
whatever the state was before. The last clause, that the host's later events stay pending, is no rule of the spec: it is the model's
choice (DESIGN CHOICE, log 17; the queue itself is log 1). -/
def Obligations.ResetLeavesResetDataAndClearControl : Prop :=
  ∀ (s : State) (data : DataRegs) (rest : List HostEvent), s.port.pending = .reset data :: rest →
    ∃ t, step s = .next t ∧ t.regs = data ∧ t.ctl.statusWord = 0 ∧ t.ctl.causeWord = 0 ∧ t.ctl.ecmd = 0 ∧ t.port.pending = rest

/-- R232: the state after reset has zero STATUS, CAUSE and ECMD and a consistent record, for every RESET_DATA; `State.reset` is the
one for the value log 4 names (a choice of the model). -/
def Obligations.ResetStateIsConsistent : Prop :=
  (∀ data : DataRegs, (State.afterReset data).ctl.statusWord = 0 ∧ (State.afterReset data).ctl.causeWord = 0
    ∧ (State.afterReset data).ctl.ecmd = 0 ∧ ConsistentRecord (State.afterReset data).ctl)
  ∧ (∃ data, State.reset = State.afterReset data) ∧ SafeRun State.reset
end

