-- ==== Sys2Proof/Laws/Decode.lean ====
section
/-! SUPPORT. The encoding formula field by field, and what the decoder's answer says about the word. -/

namespace Sys2Proof

/-- An index has two bits. -/
theorem idx_testBit_high (i : Idx) (j : Nat) (h : 2 ≤ j) : i.val.testBit j = false :=
  Nat.testBit_lt_two_pow (lt_of_lt_of_le i.isLt (Nat.pow_le_pow_right (by decide) h : 2 ^ 2 ≤ 2 ^ j))

theorem idxWord_getLsbD (i : Idx) (j : Nat) : (idxWord i).getLsbD j = (decide (j < 2) && i.val.testBit j) := by
  simp only [idxWord, BitVec.getLsbD_ofNat]
  by_cases h : j < 2
  · simp [h, show j < 32 by omega]
  · simp [h, idx_testBit_high i j (by omega)]

/-- The four-bit field that holds an index. -/
def nibble (i : Idx) : BitVec 4 := BitVec.ofNat 4 i.val

theorem nibble_getLsbD (i : Idx) (j : Nat) : (nibble i).getLsbD j = (decide (j < 2) && i.val.testBit j) := by
  simp only [nibble, BitVec.getLsbD_ofNat]
  by_cases h : j < 2
  · simp [h, show j < 4 by omega]
  · simp [h, idx_testBit_high i j (by omega)]

/-- The fields of an assembled word are its parts, the ZERO field zero (30_encoding.md R91, R101). -/
theorem fields_assemble (opc : BitVec 8) (d a b c e : Idx) :
    Fields.ofWord (assemble opc d a b c e) = ⟨opc, nibble d, nibble a, nibble b, nibble c, nibble e, 0⟩ := by
  simp only [Fields.ofWord, opcOf, Fields.mk.injEq]
  refine ⟨?_, ?_, ?_, ?_, ?_, ?_, ?_⟩ <;>
    (apply BitVec.eq_of_getLsbD_eq
     intro j hj
     simp only [assemble, BitVec.getLsbD_extractLsb', BitVec.getLsbD_or, BitVec.getLsbD_shiftLeft, BitVec.getLsbD_setWidth,
       idxWord_getLsbD, nibble_getLsbD]
     interval_cases j <;> simp)

theorem indexAt_eq (w : Word) (lo : Nat) : (indexAt w lo).val = (w.extractLsb' lo 2).toNat := by
  simp only [indexAt, Fin.ofNat]
  have := (w.extractLsb' lo 2).isLt
  omega

/-- An index field whose two high bits are clear is the field of the index read from it. -/
theorem extract_eq_nibble (w : Word) (lo : Nat) (h2 : w.getLsbD (lo + 2) = false) (h3 : w.getLsbD (lo + 3) = false) :
    w.extractLsb' lo 4 = nibble (indexAt w lo) := by
  apply BitVec.eq_of_getLsbD_eq
  intro j hj
  have h := BitVec.getLsbD_extractLsb' (x := w) (start := lo) (len := 2) (i := j)
  rw [nibble_getLsbD, indexAt_eq, show (w.extractLsb' lo 2).toNat.testBit j = (w.extractLsb' lo 2).getLsbD j from rfl, h]
  interval_cases j <;> simp [h2, h3]

/-- A word is its seven fields (30_encoding.md R91). -/
theorem word_ext_fields (w u : Word) (h : Fields.ofWord w = Fields.ofWord u) : w = u := by
  simp only [Fields.ofWord, Fields.mk.injEq, opcOf] at h
  obtain ⟨h1, h2, h3, h4, h5, h6, h7⟩ := h
  have bits : ∀ lo len : Nat, w.extractLsb' lo len = u.extractLsb' lo len →
      ∀ j, lo ≤ j → j < lo + len → w.getLsbD j = u.getLsbD j := by
    intro lo len h j hl hu
    have := congrArg (fun v => v.getLsbD (j - lo)) h
    simpa [BitVec.getLsbD_extractLsb', show j - lo < len by omega, show lo + (j - lo) = j by omega] using this
  apply BitVec.eq_of_getLsbD_eq
  intro j hj
  by_cases c : j < 4
  · exact bits _ _ h7 j (by omega) (by omega)
  by_cases c : j < 8
  · exact bits _ _ h6 j (by omega) (by omega)
  by_cases c : j < 12
  · exact bits _ _ h5 j (by omega) (by omega)
  by_cases c : j < 16
  · exact bits _ _ h4 j (by omega) (by omega)
  by_cases c : j < 20
  · exact bits _ _ h3 j (by omega) (by omega)
  by_cases c : j < 24
  · exact bits _ _ h2 j (by omega) (by omega)
  exact bits _ _ h1 j (by omega) (by omega)

/-- A successful decode names the row with the word's opcode byte, whose mask the word passes. -/
theorem decode_ok_cases (w : Word) (i : Instr) (h : decode w = .ok i) :
    ∃ r ∈ opcodeTable, r.opc = opcOf w ∧ w &&& r.mask = r.pat ∧ i = r.op.instr w := by
  unfold decode at h
  split at h
  · cases h
  · next r hr =>
    split at h
    · next hm =>
      cases h
      exact ⟨r, List.mem_of_find?_eq_some hr, by simpa using List.find?_some hr, hm, rfl⟩
    · cases h

/-- The opcode bytes of the table are distinct, so no word selects two rows (30_encoding.md R97). -/
theorem opcodes_pairwise_distinct : opcodeTable.Pairwise (fun r q => r.opc ≠ q.opc) := by decide

/-- Every row's match value is its opcode byte over zeros, and its mask holds the opcode byte whole (30_encoding.md R92). -/
theorem rows_match_opcode : ∀ r ∈ opcodeTable, r.pat = r.opc.setWidth 32 <<< 24 ∧ r.mask.extractLsb' 24 8 = 0xFF := by decide

end Sys2Proof
end

