-- ==== Sys2Proof/Laws/FixedPoint.lean ====
section
/-! SUPPORT. The scalar operations in Lean's own bit vector arithmetic, and what the coefficient tests can answer. -/

namespace Sys2Proof.Machine

@[simp] theorem fxadd_eq_add (p q : Wide) : fxadd p q = p + q := by
  unfold fxadd
  rw [BitVec.ofInt_add, BitVec.ofInt_toInt, BitVec.ofInt_toInt]

@[simp] theorem fxneg_eq_neg (p : Wide) : fxneg p = -p := by
  unfold fxneg
  rw [BitVec.ofInt_neg, BitVec.ofInt_toInt]

theorem sext32_eq_signExtend (n : Narrow) : sext32 n = n.signExtend 32 := rfl

theorem toInt_one : one.toInt = 256 := by decide

/-- Every free table entry has magnitude at most 1.0. -/
theorem trigEntry_toInt (n : Fin 513) : (trigEntry n).toInt = (n.val : Int) - 256 := by
  have h := n.isLt
  unfold trigEntry
  rw [BitVec.toInt_ofInt]
  simp only [Int.bmod]
  split <;> omega

/-- No coefficient fails exactly when all four fit. -/
theorem firstUnfit_eq_none (w : WorkingMatrix) :
    firstUnfit w = none ↔ fits8 w.a = true ∧ fits8 w.b = true ∧ fits8 w.c = true ∧ fits8 w.d = true := by
  unfold firstUnfit
  cases fits8 w.a <;> cases fits8 w.b <;> cases fits8 w.c <;> cases fits8 w.d <;> simp

/-- The number of a failing coefficient is at most 3. -/
theorem firstUnfit_le (w : WorkingMatrix) (info : BitVec 4) (h : firstUnfit w = some info) : info ≤ 3 := by
  unfold firstUnfit at h
  split at h
  · cases h; decide
  split at h
  · cases h; decide
  split at h
  · cases h; decide
  split at h
  · cases h; decide
  · cases h

/-- No scale lane fails exactly when both fit. -/
theorem firstUnfitScale_eq_none (p : Vec2) :
    firstUnfitScale p = none ↔ fits8 p.x = true ∧ fits8 p.y = true := by
  unfold firstUnfitScale
  cases fits8 p.x <;> cases fits8 p.y <;> simp

end Sys2Proof.Machine
end

