-- ==== Sys2Proof/Laws/PerInstr.lean ====
section
/-! SUPPORT. Statements for all commands, one lemma per constructor. -/

namespace Sys2Proof.Laws.EncodesWellFormed

/-- The word of a command has well-formed fields (30_encoding.md R98). -/
def Statement (i : Instr) : Prop := (Fields.ofWord (encode i)).wellFormed = true

theorem indexOk_nibble (i : Idx) : indexOk true (nibble i) = true := by revert i; decide

theorem indexOk_nibble_zero : indexOk false (nibble 0) = true := by decide

theorem ident (d : Idx) : Statement (.ident d) := by
  simp only [Statement, encode, fields_assemble]; revert d; decide
theorem rot (d a : Idx) : Statement (.rot d a) := by
  simp only [Statement, encode, fields_assemble]; revert d a; decide
theorem trn (d a : Idx) : Statement (.trn d a) := by
  simp only [Statement, encode, fields_assemble]; revert d a; decide
theorem scl (d a : Idx) : Statement (.scl d a) := by
  simp only [Statement, encode, fields_assemble]; revert d a; decide
theorem pos (d a : Idx) : Statement (.pos d a) := by
  simp only [Statement, encode, fields_assemble]; revert d a; decide
theorem mul (d a b : Idx) : Statement (.mul d a b) := by
  simp only [Statement, encode, fields_assemble]; revert d a b; decide
theorem trybg (d a : Idx) : Statement (.trybg d a) := by
  simp only [Statement, encode, fields_assemble]; revert d a; decide
theorem tryobj (d a : Idx) : Statement (.tryobj d a) := by
  simp only [Statement, encode, fields_assemble]; revert d a; decide
theorem wrpbg (d a : Idx) : Statement (.wrpbg d a) := by
  simp only [Statement, encode, fields_assemble]; revert d a; decide
theorem wrpobj (d a : Idx) : Statement (.wrpobj d a) := by
  simp only [Statement, encode, fields_assemble]; revert d a; decide
theorem widbg (d a : Idx) : Statement (.widbg d a) := by
  simp only [Statement, encode, fields_assemble]; revert d a; decide
theorem widobj (d a : Idx) : Statement (.widobj d a) := by
  simp only [Statement, encode, fields_assemble]; revert d a; decide
theorem bgsrp (d a b c e : Idx) : Statement (.bgsrp d a b c e) := by
  simp only [Statement, encode, fields_assemble, Fields.wellFormed, show formatOf 0x20 = some .Q from rfl, Format.usesRA,
    Format.usesRB, Format.usesRC, Format.usesRE, indexOk_nibble]
  decide

end Sys2Proof.Laws.EncodesWellFormed
end

