-- ==== Sys2Proof/Laws/State.lean ====
section
/-! SUPPORT. The small lemmas of the state: what each update leaves of each field, and the register files' read and write. -/

namespace Sys2Proof.Machine

section Bank
variable {α : Type} (k : Bank α) (i j : Idx) (x y : α)

@[simp] theorem Bank.get_set_self : (k.set i x).get i = x := by fin_cases i <;> rfl

@[simp] theorem Bank.get_set_ne (h : j ≠ i) : (k.set i x).get j = k.get j := by
  fin_cases i <;> fin_cases j <;> first | rfl | exact absurd rfl h

theorem Bank.get_set : (k.set i x).get j = if j = i then x else k.get j := by
  split
  · next h => subst h; simp
  · next h => simp [h]

@[simp] theorem Bank.set_get_self : k.set i (k.get i) = k := by fin_cases i <;> rfl

@[simp] theorem Bank.set_set : (k.set i x).set i y = k.set i y := by fin_cases i <;> rfl

theorem Bank.ext_get {k l : Bank α} (h : ∀ i, k.get i = l.get i) : k = l := by
  cases k; cases l; congr 1
  · exact h 0
  · exact h 1
  · exact h 2
  · exact h 3

end Bank

section Updates
variable (s : State) (i j : Idx)

@[simp] theorem writeM_regs_m (x : WorkingMatrix) : (s.writeM i x).regs.m = s.regs.m.set i x := rfl
@[simp] theorem writeM_regs_v (x : WorkingMatrix) : (s.writeM i x).regs.v = s.regs.v := rfl
@[simp] theorem writeM_regs_b (x : WorkingMatrix) : (s.writeM i x).regs.b = s.regs.b := rfl
@[simp] theorem writeM_regs_o (x : WorkingMatrix) : (s.writeM i x).regs.o = s.regs.o := rfl
@[simp] theorem writeM_ctl (x : WorkingMatrix) : (s.writeM i x).ctl = s.ctl := rfl
@[simp] theorem writeM_port (x : WorkingMatrix) : (s.writeM i x).port = s.port := rfl
@[simp] theorem readM_writeM_self (x : WorkingMatrix) : (s.writeM i x).readM i = x := Bank.get_set_self _ _ _
@[simp] theorem readM_writeM_ne (x : WorkingMatrix) (h : j ≠ i) : (s.writeM i x).readM j = s.readM j := Bank.get_set_ne _ _ _ _ h
@[simp] theorem readV_writeM (x : WorkingMatrix) : (s.writeM i x).readV j = s.readV j := rfl
@[simp] theorem readB_writeM (x : WorkingMatrix) : (s.writeM i x).readB j = s.readB j := rfl
@[simp] theorem readO_writeM (x : WorkingMatrix) : (s.writeM i x).readO j = s.readO j := rfl

@[simp] theorem writeV_regs_m (x : Vec2) : (s.writeV i x).regs.m = s.regs.m := rfl
@[simp] theorem writeV_regs_v (x : Vec2) : (s.writeV i x).regs.v = s.regs.v.set i x := rfl
@[simp] theorem writeV_regs_b (x : Vec2) : (s.writeV i x).regs.b = s.regs.b := rfl
@[simp] theorem writeV_regs_o (x : Vec2) : (s.writeV i x).regs.o = s.regs.o := rfl
@[simp] theorem writeV_ctl (x : Vec2) : (s.writeV i x).ctl = s.ctl := rfl
@[simp] theorem writeV_port (x : Vec2) : (s.writeV i x).port = s.port := rfl
@[simp] theorem readV_writeV_self (x : Vec2) : (s.writeV i x).readV i = x := Bank.get_set_self _ _ _
@[simp] theorem readV_writeV_ne (x : Vec2) (h : j ≠ i) : (s.writeV i x).readV j = s.readV j := Bank.get_set_ne _ _ _ _ h
@[simp] theorem readM_writeV (x : Vec2) : (s.writeV i x).readM j = s.readM j := rfl
@[simp] theorem readB_writeV (x : Vec2) : (s.writeV i x).readB j = s.readB j := rfl
@[simp] theorem readO_writeV (x : Vec2) : (s.writeV i x).readO j = s.readO j := rfl

@[simp] theorem writeB_regs_m (x : BgMatrix) : (s.writeB i x).regs.m = s.regs.m := rfl
@[simp] theorem writeB_regs_v (x : BgMatrix) : (s.writeB i x).regs.v = s.regs.v := rfl
@[simp] theorem writeB_regs_b (x : BgMatrix) : (s.writeB i x).regs.b = s.regs.b.set i x := rfl
@[simp] theorem writeB_regs_o (x : BgMatrix) : (s.writeB i x).regs.o = s.regs.o := rfl
@[simp] theorem writeB_ctl (x : BgMatrix) : (s.writeB i x).ctl = s.ctl := rfl
@[simp] theorem writeB_port (x : BgMatrix) : (s.writeB i x).port = s.port := rfl
@[simp] theorem readB_writeB_self (x : BgMatrix) : (s.writeB i x).readB i = x := Bank.get_set_self _ _ _
@[simp] theorem readB_writeB_ne (x : BgMatrix) (h : j ≠ i) : (s.writeB i x).readB j = s.readB j := Bank.get_set_ne _ _ _ _ h
@[simp] theorem readM_writeB (x : BgMatrix) : (s.writeB i x).readM j = s.readM j := rfl
@[simp] theorem readV_writeB (x : BgMatrix) : (s.writeB i x).readV j = s.readV j := rfl
@[simp] theorem readO_writeB (x : BgMatrix) : (s.writeB i x).readO j = s.readO j := rfl

@[simp] theorem writeO_regs_m (x : ObjMatrix) : (s.writeO i x).regs.m = s.regs.m := rfl
@[simp] theorem writeO_regs_v (x : ObjMatrix) : (s.writeO i x).regs.v = s.regs.v := rfl
@[simp] theorem writeO_regs_b (x : ObjMatrix) : (s.writeO i x).regs.b = s.regs.b := rfl
@[simp] theorem writeO_regs_o (x : ObjMatrix) : (s.writeO i x).regs.o = s.regs.o.set i x := rfl
@[simp] theorem writeO_ctl (x : ObjMatrix) : (s.writeO i x).ctl = s.ctl := rfl
@[simp] theorem writeO_port (x : ObjMatrix) : (s.writeO i x).port = s.port := rfl
@[simp] theorem readO_writeO_self (x : ObjMatrix) : (s.writeO i x).readO i = x := Bank.get_set_self _ _ _
@[simp] theorem readO_writeO_ne (x : ObjMatrix) (h : j ≠ i) : (s.writeO i x).readO j = s.readO j := Bank.get_set_ne _ _ _ _ h
@[simp] theorem readM_writeO (x : ObjMatrix) : (s.writeO i x).readM j = s.readM j := rfl
@[simp] theorem readV_writeO (x : ObjMatrix) : (s.writeO i x).readV j = s.readV j := rfl
@[simp] theorem readB_writeO (x : ObjMatrix) : (s.writeO i x).readB j = s.readB j := rfl

variable (f : Control → Control) (r : Response) (q : List HostEvent) (data : DataRegs)

@[simp] theorem mapCtl_regs : (s.mapCtl f).regs = s.regs := rfl
@[simp] theorem mapCtl_ctl : (s.mapCtl f).ctl = f s.ctl := rfl
@[simp] theorem mapCtl_port : (s.mapCtl f).port = s.port := rfl
@[simp] theorem readM_mapCtl : (s.mapCtl f).readM j = s.readM j := rfl
@[simp] theorem readV_mapCtl : (s.mapCtl f).readV j = s.readV j := rfl
@[simp] theorem readB_mapCtl : (s.mapCtl f).readB j = s.readB j := rfl
@[simp] theorem readO_mapCtl : (s.mapCtl f).readO j = s.readO j := rfl

@[simp] theorem completeFallible_regs : s.completeFallible.regs = s.regs := rfl
@[simp] theorem completeFallible_ctl : s.completeFallible.ctl = { s.ctl with ovf := false } := rfl
@[simp] theorem completeFallible_port : s.completeFallible.port = s.port := rfl
@[simp] theorem readM_completeFallible : s.completeFallible.readM j = s.readM j := rfl
@[simp] theorem readV_completeFallible : s.completeFallible.readV j = s.readV j := rfl
@[simp] theorem readB_completeFallible : s.completeFallible.readB j = s.readB j := rfl
@[simp] theorem readO_completeFallible : s.completeFallible.readO j = s.readO j := rfl

@[simp] theorem raiseOverflow_regs (info : BitVec 4) (w : Word) : (s.raiseOverflow info w).regs = s.regs := rfl
@[simp] theorem raiseOverflow_ctl (info : BitVec 4) (w : Word) :
    (s.raiseOverflow info w).ctl = ⟨true, true, s.ctl.ill, 1, info, w⟩ := rfl
@[simp] theorem raiseOverflow_port (info : BitVec 4) (w : Word) : (s.raiseOverflow info w).port = s.port := rfl

@[simp] theorem raiseIllegal_regs (e : DecodeError) (w : Word) : (s.raiseIllegal e w).regs = s.regs := rfl
@[simp] theorem raiseIllegal_ctl (e : DecodeError) (w : Word) :
    (s.raiseIllegal e w).ctl = ⟨s.ctl.ovf, s.ctl.sovf, true, 2, e.reason, w⟩ := rfl
@[simp] theorem raiseIllegal_port (e : DecodeError) (w : Word) : (s.raiseIllegal e w).port = s.port := rfl

@[simp] theorem respond_regs : (s.respond r).regs = s.regs := rfl
@[simp] theorem respond_ctl : (s.respond r).ctl = s.ctl := rfl
@[simp] theorem respond_pending : (s.respond r).port.pending = s.port.pending := rfl
@[simp] theorem respond_response : (s.respond r).port.response = some r := rfl

@[simp] theorem withPending_regs : (s.withPending q).regs = s.regs := rfl
@[simp] theorem withPending_ctl : (s.withPending q).ctl = s.ctl := rfl
@[simp] theorem withPending_pending : (s.withPending q).port.pending = q := rfl
@[simp] theorem withPending_response : (s.withPending q).port.response = s.port.response := rfl

@[simp] theorem applyReset_regs : (applyReset data s).regs = data := rfl
@[simp] theorem applyReset_ctl : (applyReset data s).ctl = Control.reset := rfl
@[simp] theorem applyReset_pending : (applyReset data s).port.pending = s.port.pending := rfl
@[simp] theorem applyReset_response : (applyReset data s).port.response = none := rfl

@[simp] theorem afterReset_regs : (State.afterReset data).regs = data := rfl
@[simp] theorem afterReset_ctl : (State.afterReset data).ctl = Control.reset := rfl
@[simp] theorem afterReset_pending : (State.afterReset data).port.pending = [] := rfl

end Updates

/-- Everything the end of a fallible command can do: it raises Overflow, or it is `done` with OVF cleared. -/
theorem endFallible_cases (s : State) (i : Instr) (bad : Option (BitVec 4)) (done : State) :
    (∃ info, bad = some info ∧ s.endFallible i bad done = s.raiseOverflow info (encode i))
      ∨ (bad = none ∧ s.endFallible i bad done = done.completeFallible) := by
  cases bad with
  | none => exact .inr ⟨rfl, rfl⟩
  | some info => exact .inl ⟨info, rfl, rfl⟩

end Sys2Proof.Machine
end

