-- ==== Sys2Proof/Laws/Step.lean ====
section
/-! SUPPORT. What a command and a step can do, said once: each command's outcome by name, and a step by the event it takes. -/

namespace Sys2Proof.Machine

section Exec
variable (d a b c e : Idx) (s : State)

theorem exec_ident : exec (.ident d) s = .next (s.writeM d identityMatrix) := rfl
theorem exec_rot : exec (.rot d a) s = .next (s.writeM d (rotationMatrix (angleOf (s.readV a)))) := rfl
theorem exec_trn : exec (.trn d a) s = .next (s.writeM d (translationMatrix (s.readV a))) := rfl
theorem exec_scl : exec (.scl d a) s = .next (s.writeM d (scaleMatrix (s.readV a))) := rfl
theorem exec_pos : exec (.pos d a) s = .next (s.writeV d (positionOf (s.readM a))) := rfl
theorem exec_mul : exec (.mul d a b) s = .next (s.writeM d (matmul (s.readM a) (s.readM b))) := rfl
theorem exec_trybg : exec (.trybg d a) s =
    .next (s.endFallible (.trybg d a) (firstUnfit (s.readM a)) (s.writeB d (narrowBg (s.readM a)))) := rfl
theorem exec_tryobj : exec (.tryobj d a) s =
    .next (s.endFallible (.tryobj d a) (firstUnfit (s.readM a)) (s.writeO d (narrowObj (s.readM a)))) := rfl
theorem exec_wrpbg : exec (.wrpbg d a) s = .next (s.writeB d (narrowBg (s.readM a))) := rfl
theorem exec_wrpobj : exec (.wrpobj d a) s = .next (s.writeO d (narrowObj (s.readM a))) := rfl
theorem exec_widbg : exec (.widbg d a) s = .next (s.writeM d (widenBg (s.readB a))) := rfl
theorem exec_widobj : exec (.widobj d a) s = .next (s.writeM d (widenObj (s.readO a))) := rfl
theorem exec_bgsrp : exec (.bgsrp d a b c e) s =
    .next (s.endFallible (.bgsrp d a b c e)
      ((firstUnfitScale (s.readV c)).orElse fun _ =>
        firstUnfit (composite (s.readV a) (s.readV b) (s.readV c) (angleOf (s.readV e))))
      (s.writeB d (narrowBg (composite (s.readV a) (s.readV b) (s.readV c) (angleOf (s.readV e)))))) := rfl

end Exec

/-- No command stops the machine. -/
theorem exec_answers_next (i : Instr) (s : State) : ∃ t, exec i s = .next t := by cases i <;> exact ⟨_, rfl⟩

/-- A write to CMD is always answered by a next state. -/
theorem executeCommand_answers_next (w : Word) (s : State) : ∃ t, executeCommand w s = .next t := by
  unfold executeCommand
  split
  · exact exec_answers_next _ s
  · exact ⟨_, rfl⟩

theorem step_of_nil (s : State) (h : s.port.pending = []) : step s = .next s := by simp [step, h]

theorem step_of_cons (s : State) (e : HostEvent) (rest : List HostEvent) (h : s.port.pending = e :: rest) :
    step s = perform e (s.withPending rest) := by simp [step, h]

/-- Everything a write can do: it is turned away, or executes a command, or clears flags, or replaces bytes of the data region. -/
theorem memWrite_cases (off n : Nat) (v : Word) (s : State) :
    (admitted true off n = false ∧ memWrite off n v s = .next (s.respond .err))
      ∨ (admitted true off n = true ∧ off = cmdOffset ∧ memWrite off n v s = executeCommand v (s.respond .ok))
      ∨ (admitted true off n = true ∧ off = statusOffset
          ∧ memWrite off n v s = .next ((s.respond .ok).mapCtl (Control.clearFlags v)))
      ∨ (admitted true off n = true ∧ off ≠ cmdOffset ∧ off ≠ statusOffset
          ∧ memWrite off n v s = .next { s.respond .ok with regs := s.regs.writeWindow off n v }) := by
  unfold memWrite
  by_cases ha : admitted true off n = true
  · by_cases hc : off = cmdOffset
    · exact .inr (.inl ⟨ha, hc, by rw [if_pos ha, if_pos hc]⟩)
    · by_cases hs : off = statusOffset
      · exact .inr (.inr (.inl ⟨ha, hs, by rw [if_pos ha, if_neg hc, if_pos hs]⟩))
      · exact .inr (.inr (.inr ⟨ha, hc, hs, by rw [if_pos ha, if_neg hc, if_neg hs]⟩))
  · exact .inl ⟨by simpa using ha, by rw [if_neg ha]⟩

/-- An admitted write to CMD is of four bytes. -/
theorem admitted_cmd_size (w : Bool) (n : Nat) (h : admitted w cmdOffset n = true) : n = 4 := by
  simp only [admitted, Bool.and_eq_true, Bool.or_eq_true, beq_iff_eq, Bool.not_eq_true'] at h
  obtain ⟨⟨⟨⟨h1, -⟩, -⟩, h4⟩, -⟩ := h
  rcases h1 with (rfl | rfl) | rfl
  · exact absurd h4 (by decide)
  · exact absurd h4 (by decide)
  · rfl

/-- An admitted write to STATUS is of four bytes. -/
theorem admitted_status_size (w : Bool) (n : Nat) (h : admitted w statusOffset n = true) : n = 4 := by
  simp only [admitted, Bool.and_eq_true, Bool.or_eq_true, beq_iff_eq, Bool.not_eq_true'] at h
  obtain ⟨⟨⟨⟨h1, -⟩, -⟩, h4⟩, -⟩ := h
  rcases h1 with (rfl | rfl) | rfl
  · exact absurd h4 (by decide)
  · exact absurd h4 (by decide)
  · rfl

/-- Everything a step that answers next can do, by the event it takes: idle, reset, a transaction that only gets a response (a
read, or any turned away), a STATUS write, a data write, a command, an illegal word. -/
theorem step_cases (s t : State) (h : step s = .next t) :
    (s.port.pending = [] ∧ t = s)
    ∨ (∃ data rest, s.port.pending = .reset data :: rest ∧ t = ⟨data, Control.reset, ⟨rest, none⟩⟩)
    ∨ (∃ e rest r, s.port.pending = e :: rest ∧ Answerable e ∧ t = ⟨s.regs, s.ctl, ⟨rest, some r⟩⟩)
    ∨ (∃ v rest, s.port.pending = .write 0x184 4 v :: rest ∧ t = ⟨s.regs, s.ctl.clearFlags v, ⟨rest, some .ok⟩⟩)
    ∨ (∃ off n v rest, s.port.pending = .write off n v :: rest ∧ admitted true off n = true
        ∧ t = ⟨s.regs.writeWindow off n v, s.ctl, ⟨rest, some .ok⟩⟩)
    ∨ (∃ w rest i, s.port.pending = .write 0x180 4 w :: rest ∧ decode w = .ok i
        ∧ exec i ⟨s.regs, s.ctl, ⟨rest, some .ok⟩⟩ = .next t)
    ∨ (∃ w rest e, s.port.pending = .write 0x180 4 w :: rest ∧ decode w = .error e
        ∧ t = ⟨s.regs, ⟨s.ctl.ovf, s.ctl.sovf, true, 2, e.reason, w⟩, ⟨rest, some .ok⟩⟩) := by
  cases hp : s.port.pending with
  | nil =>
    rw [step_of_nil s hp] at h
    cases h
    exact .inl ⟨rfl, rfl⟩
  | cons e rest =>
    right
    rw [step_of_cons _ _ _ hp] at h
    cases e with
    | reset data =>
      cases h
      exact .inl ⟨_, _, rfl, rfl⟩
    | read off n =>
      right; left
      simp only [perform] at h
      split at h
      · next hw =>
        cases h
        unfold memRead
        split
        · exact ⟨_, _, _, rfl, hw, rfl⟩
        · exact ⟨_, _, _, rfl, hw, rfl⟩
      · cases h
    | write off n v =>
      right
      simp only [perform] at h
      split at h
      · next hw =>
        rcases memWrite_cases off n v (s.withPending rest) with ⟨ha, hm⟩ | ⟨ha, rfl, hm⟩ | ⟨ha, rfl, hm⟩ | ⟨ha, -, -, hm⟩
        · rw [hm] at h
          cases h
          exact .inl ⟨_, _, _, rfl, hw, rfl⟩
        · obtain rfl := admitted_cmd_size _ _ ha
          rw [hm] at h
          unfold executeCommand at h
          right; right; right
          split at h
          · next i hd => exact .inl ⟨v, rest, i, rfl, hd, h⟩
          · next e hd =>
            cases h
            exact .inr ⟨v, rest, e, rfl, hd, rfl⟩
        · obtain rfl := admitted_status_size _ _ ha
          rw [hm] at h
          cases h
          exact .inr (.inl ⟨v, rest, rfl, rfl⟩)
        · rw [hm] at h
          cases h
          exact .inr (.inr (.inl ⟨off, n, v, rest, rfl, ha, rfl⟩))
      · cases h

end Sys2Proof.Machine
end

