-- ==== Sys2Proof/Laws/Window.lean ====
section
/-! SUPPORT. The byte view of the registers: one byte read after one byte written, the map and its inverse, and registers equal when
all their bytes are. -/

namespace Sys2Proof.Machine

section Bytes
variable {w : Nat} (v : BitVec w) (x : Byte)

theorem byteOf_getLsbD (k j : Nat) : (byteOf v k).getLsbD j = (decide (j < 8) && v.getLsbD (8 * k + j)) := by
  simp [byteOf, BitVec.getLsbD_extractLsb']

theorem putByte_getLsbD (k j : Nat) (hj : j < w) :
    (putByte v k x).getLsbD j = if 8 * k ≤ j ∧ j < 8 * k + 8 then x.getLsbD (j - 8 * k) else v.getLsbD j := by
  have hff : ∀ n, (0xFF#8).getLsbD n = decide (n < 8) := by
    intro n
    by_cases h : n < 8
    · interval_cases n <;> rfl
    · rw [BitVec.getLsbD_of_ge _ _ (by omega)]
      simp [h]
  simp only [putByte, BitVec.getLsbD_or, BitVec.getLsbD_and, BitVec.getLsbD_not, BitVec.getLsbD_shiftLeft, BitVec.getLsbD_setWidth, hff]
  by_cases h1 : 8 * k ≤ j
  · by_cases h2 : j < 8 * k + 8
    · simp [hj, h1, h2, show ¬ j < 8 * k by omega, show j - 8 * k < w by omega, show j - 8 * k < 8 by omega]
    · simp [hj, h1, h2, show ¬ j < 8 * k by omega, show ¬ j - 8 * k < 8 by omega, BitVec.getLsbD_of_ge x (j - 8 * k) (by omega)]
  · simp [hj, h1, show j < 8 * k by omega]

theorem byteOf_putByte_self (k : Nat) (hk : 8 * k + 8 ≤ w) : byteOf (putByte v k x) k = x := by
  apply BitVec.eq_of_getLsbD_eq
  intro j hj
  rw [byteOf_getLsbD, putByte_getLsbD _ _ _ _ (by omega)]
  simp [hj]

theorem byteOf_putByte_ne (k l : Nat) (h : l ≠ k) : byteOf (putByte v k x) l = byteOf v l := by
  apply BitVec.eq_of_getLsbD_eq
  intro j hj
  rw [byteOf_getLsbD, byteOf_getLsbD]
  by_cases hw : 8 * l + j < w
  · rw [putByte_getLsbD _ _ _ _ hw, if_neg (by omega)]
  · rw [BitVec.getLsbD_of_ge _ _ (by omega), BitVec.getLsbD_of_ge _ _ (by omega)]

end Bytes

/-- A wide value is its four bytes. -/
theorem wide_ext_bytes {p q : Wide} (h : ∀ k < 4, byteOf p k = byteOf q k) : p = q := by
  apply BitVec.eq_of_getLsbD_eq
  intro j hj
  have := congrArg (fun b : Byte => b.getLsbD (j % 8)) (h (j / 8) (by omega))
  simp only [byteOf_getLsbD] at this
  simpa [show j % 8 < 8 by omega, show 8 * (j / 8) + j % 8 = j by omega] using this

/-- A narrow value is its two bytes. -/
theorem narrow_ext_bytes {p q : Narrow} (h : ∀ k < 2, byteOf p k = byteOf q k) : p = q := by
  apply BitVec.eq_of_getLsbD_eq
  intro j hj
  have := congrArg (fun b : Byte => b.getLsbD (j % 8)) (h (j / 8) (by omega))
  simp only [byteOf_getLsbD] at this
  simpa [show j % 8 < 8 by omega, show 8 * (j / 8) + j % 8 = j by omega] using this

/-- The map finds the field whose byte `k` lies at its offset plus `k`. -/
theorem locate_slot (t : Slot) (k : Nat) (hk : k < t.size) : locate (t.offset + k) = some (t, k) := by
  cases t with
  | mCoef i f => cases f <;> (simp only [Slot.size] at hk; interval_cases k <;> fin_cases i <;> rfl)
  | mTrans i l => cases l <;> (simp only [Slot.size] at hk; interval_cases k <;> fin_cases i <;> rfl)
  | vLane i l => cases l <;> (simp only [Slot.size] at hk; interval_cases k <;> fin_cases i <;> rfl)
  | bCoef i f => cases f <;> (simp only [Slot.size] at hk; interval_cases k <;> fin_cases i <;> rfl)
  | bTrans i l => cases l <;> (simp only [Slot.size] at hk; interval_cases k <;> fin_cases i <;> rfl)
  | oCoef i f => cases f <;> (simp only [Slot.size] at hk; interval_cases k <;> fin_cases i <;> rfl)

/-- Past the data region the map finds nothing. -/
theorem locate_none_of_ge (off : Nat) (h : 0x120 ≤ off) : locate off = none := by
  unfold locate
  rw [if_neg (by omega), if_neg (by omega), if_neg (by omega), if_neg (by omega), if_neg (by omega)]

theorem locate_sound_below : ∀ off < 0x120, ∀ p ∈ locate off, p.1.offset + p.2 = off ∧ p.2 < p.1.size := by decide +kernel

/-- What the map answers is a field and a byte of it, at that offset. -/
theorem locate_sound (off : Nat) (t : Slot) (k : Nat) (h : locate off = some (t, k)) : t.offset + k = off ∧ k < t.size := by
  by_cases hlt : off < 0x120
  · exact locate_sound_below off hlt (t, k) h
  · rw [locate_none_of_ge off (by omega)] at h
    cases h

/-- One byte of the registers after one byte was written: the written one, and every other as before. -/
theorem slotByte_putSlotByte (r : DataRegs) (t u : Slot) (k l : Nat) (x : Byte) (hk : k < t.size) :
    (r.putSlotByte t k x).slotByte u l = if u = t ∧ l = k then x else r.slotByte u l := by
  have h4 : ∀ p : Wide, k < 4 → byteOf (putByte p k x) l = if l = k then x else byteOf p l := by
    intro p h
    split
    · next e => subst e; exact byteOf_putByte_self p x l (by omega)
    · next e => exact byteOf_putByte_ne p x k l e
  have h2 : ∀ p : Narrow, k < 2 → byteOf (putByte p k x) l = if l = k then x else byteOf p l := by
    intro p h
    split
    · next e => subst e; exact byteOf_putByte_self p x l (by omega)
    · next e => exact byteOf_putByte_ne p x k l e
  cases t with
  | mCoef i f =>
    cases u <;> try (simp [DataRegs.putSlotByte, DataRegs.slotByte]; done)
    · rename_i j g
      by_cases hij : j = i
      · subst hij
        cases f <;> cases g <;> simp [DataRegs.putSlotByte, DataRegs.slotByte, WorkingMatrix.mapCoef, WorkingMatrix.coef, h4 _ hk]
      · simp [DataRegs.putSlotByte, DataRegs.slotByte, hij]
    · rename_i j g
      by_cases hij : j = i
      · subst hij
        cases f <;> cases g <;> simp [DataRegs.putSlotByte, DataRegs.slotByte, WorkingMatrix.mapCoef, WorkingMatrix.trans]
      · simp [DataRegs.putSlotByte, DataRegs.slotByte, hij]
  | mTrans i f =>
    cases u <;> try (simp [DataRegs.putSlotByte, DataRegs.slotByte]; done)
    · rename_i j g
      by_cases hij : j = i
      · subst hij
        cases f <;> cases g <;> simp [DataRegs.putSlotByte, DataRegs.slotByte, WorkingMatrix.mapTrans, WorkingMatrix.coef]
      · simp [DataRegs.putSlotByte, DataRegs.slotByte, hij]
    · rename_i j g
      by_cases hij : j = i
      · subst hij
        cases f <;> cases g <;> simp [DataRegs.putSlotByte, DataRegs.slotByte, WorkingMatrix.mapTrans, WorkingMatrix.trans, h4 _ hk]
      · simp [DataRegs.putSlotByte, DataRegs.slotByte, hij]
  | vLane i f =>
    cases u <;> try (simp [DataRegs.putSlotByte, DataRegs.slotByte]; done)
    · rename_i j g
      by_cases hij : j = i
      · subst hij
        cases f <;> cases g <;> simp [DataRegs.putSlotByte, DataRegs.slotByte, Vec2.mapLane, Vec2.lane, h4 _ hk]
      · simp [DataRegs.putSlotByte, DataRegs.slotByte, hij]
  | bCoef i f =>
    cases u <;> try (simp [DataRegs.putSlotByte, DataRegs.slotByte]; done)
    · rename_i j g
      by_cases hij : j = i
      · subst hij
        cases f <;> cases g <;> simp [DataRegs.putSlotByte, DataRegs.slotByte, BgMatrix.mapCoef, BgMatrix.coef, h2 _ hk]
      · simp [DataRegs.putSlotByte, DataRegs.slotByte, hij]
    · rename_i j g
      by_cases hij : j = i
      · subst hij
        cases f <;> cases g <;> simp [DataRegs.putSlotByte, DataRegs.slotByte, BgMatrix.mapCoef, BgMatrix.trans]
      · simp [DataRegs.putSlotByte, DataRegs.slotByte, hij]
  | bTrans i f =>
    cases u <;> try (simp [DataRegs.putSlotByte, DataRegs.slotByte]; done)
    · rename_i j g
      by_cases hij : j = i
      · subst hij
        cases f <;> cases g <;> simp [DataRegs.putSlotByte, DataRegs.slotByte, BgMatrix.mapTrans, BgMatrix.coef]
      · simp [DataRegs.putSlotByte, DataRegs.slotByte, hij]
    · rename_i j g
      by_cases hij : j = i
      · subst hij
        cases f <;> cases g <;> simp [DataRegs.putSlotByte, DataRegs.slotByte, BgMatrix.mapTrans, BgMatrix.trans, h4 _ hk]
      · simp [DataRegs.putSlotByte, DataRegs.slotByte, hij]
  | oCoef i f =>
    cases u <;> try (simp [DataRegs.putSlotByte, DataRegs.slotByte]; done)
    · rename_i j g
      by_cases hij : j = i
      · subst hij
        cases f <;> cases g <;> simp [DataRegs.putSlotByte, DataRegs.slotByte, ObjMatrix.mapCoef, ObjMatrix.coef, h2 _ hk]
      · simp [DataRegs.putSlotByte, DataRegs.slotByte, hij]

/-- Registers are equal when all their bytes are. -/
theorem DataRegs.ext_bytes {r q : DataRegs} (h : ∀ t k, k < t.size → r.slotByte t k = q.slotByte t k) : r = q := by
  cases r; cases q
  congr 1
  · refine Bank.ext_get fun i => ?_
    have hc := fun f => wide_ext_bytes fun k hk => h (.mCoef i f) k hk
    have ht := fun l => wide_ext_bytes fun k hk => h (.mTrans i l) k hk
    exact WorkingMatrix.mk.injEq .. |>.mpr ⟨hc .a, hc .b, hc .c, hc .d, ht .x, ht .y⟩
  · refine Bank.ext_get fun i => ?_
    have ht := fun l => wide_ext_bytes fun k hk => h (.vLane i l) k hk
    exact Vec2.mk.injEq .. |>.mpr ⟨ht .x, ht .y⟩
  · refine Bank.ext_get fun i => ?_
    have hc := fun f => narrow_ext_bytes fun k hk => h (.bCoef i f) k hk
    have ht := fun l => wide_ext_bytes fun k hk => h (.bTrans i l) k hk
    exact BgMatrix.mk.injEq .. |>.mpr ⟨hc .a, hc .b, hc .c, hc .d, ht .x, ht .y⟩
  · refine Bank.ext_get fun i => ?_
    have hc := fun f => narrow_ext_bytes fun k hk => h (.oCoef i f) k hk
    exact ObjMatrix.mk.injEq .. |>.mpr ⟨hc .a, hc .b, hc .c, hc .d⟩

/-- One byte of the registers after a byte of the data region was written at an offset. -/
theorem slotByte_writeByte (r : DataRegs) (off : Nat) (x : Byte) (t : Slot) (k : Nat) (hd : inData off = true) (hk : k < t.size) :
    (r.writeByte off x).slotByte t k = if t.offset + k = off then x else r.slotByte t k := by
  unfold DataRegs.writeByte
  unfold inData at hd
  cases hl : locate off with
  | none => simp [hl] at hd
  | some p =>
    obtain ⟨u, l⟩ := p
    obtain ⟨h1, h2⟩ := locate_sound _ _ _ hl
    simp only
    rw [slotByte_putSlotByte _ _ _ _ _ _ h2]
    congr 1
    apply propext
    constructor
    · rintro ⟨rfl, rfl⟩; exact h1
    · intro e
      have := locate_slot t k hk
      rw [e, hl] at this
      cases this
      exact ⟨rfl, rfl⟩

/-- One byte of the registers after a write of `n` bytes of the data region: the byte of the value, or as before. -/
theorem slotByte_writeWindow (r : DataRegs) (off n : Nat) (v : Word) (t : Slot) (k : Nat)
    (hd : ∀ j < n, inData (off + j) = true) (hk : k < t.size) :
    (r.writeWindow off n v).slotByte t k =
      if off ≤ t.offset + k ∧ t.offset + k < off + n then byteOf v (t.offset + k - off) else r.slotByte t k := by
  unfold DataRegs.writeWindow
  induction n with
  | zero => rw [if_neg (by omega)]; rfl
  | succ n ih =>
    rw [List.range_succ, List.foldl_append]
    simp only [List.foldl_cons, List.foldl_nil]
    rw [slotByte_writeByte _ _ _ _ _ (hd n (by omega)) hk, ih fun j hj => hd j (by omega)]
    by_cases h : t.offset + k = off + n
    · simp [h]
    · rw [if_neg h]
      congr 1
      apply propext
      constructor <;> (rintro ⟨a, b⟩; exact ⟨a, by omega⟩)

/-- A byte of a word assembled from bytes. -/
theorem byteOf_wordOfBytes (bs : List Byte) (k : Nat) (hk : k < 4) : byteOf (wordOfBytes bs) k = (bs[k]?).getD 0 := by
  induction bs generalizing k with
  | nil => simp [wordOfBytes, byteOf]
  | cons b bs ih =>
    cases k with
    | zero =>
      apply BitVec.eq_of_getLsbD_eq
      intro j hj
      simp [wordOfBytes, byteOf, hj]
      omega
    | succ k =>
      rw [List.getElem?_cons_succ, ← ih k (by omega)]
      apply BitVec.eq_of_getLsbD_eq
      intro j hj
      simp only [byteOf_getLsbD, hj, decide_true, Bool.true_and, wordOfBytes, BitVec.getLsbD_or, BitVec.getLsbD_setWidth,
        BitVec.getLsbD_shiftLeft, show 8 * (k + 1) + j < 32 by omega, show ¬ 8 * (k + 1) + j < 8 by omega, decide_false,
        Bool.not_false, show 8 * (k + 1) + j - 8 = 8 * k + j by omega, BitVec.getLsbD_of_ge b (8 * (k + 1) + j) (by omega),
        Bool.false_or]

/-- A word assembled from bytes has no bit above them. -/
theorem wordOfBytes_lt (bs : List Byte) : (wordOfBytes bs).toNat < 2 ^ (8 * bs.length) := by
  have bit : ∀ (bs : List Byte) (j : Nat), 8 * bs.length ≤ j → (wordOfBytes bs).getLsbD j = false := by
    intro bs
    induction bs with
    | nil => simp [wordOfBytes]
    | cons b bs ih =>
      intro j hj
      simp only [List.length_cons] at hj
      simp only [wordOfBytes, BitVec.getLsbD_or, BitVec.getLsbD_setWidth, BitVec.getLsbD_shiftLeft, ih (j - 8) (by omega),
        BitVec.getLsbD_of_ge b j (by omega), Bool.and_false, Bool.or_false]
  exact Nat.lt_pow_two_of_testBit _ fun j hj => bit bs j hj

/-- The admission checks as propositions, in the order of 20_memory.md R65. -/
theorem admitted_iff (isWrite : Bool) (off n : Nat) : admitted isWrite off n = true ↔
    (n = 1 ∨ n = 2 ∨ n = 4) ∧ off % n = 0 ∧ (∀ k < n, inData (off + k) = true ∨ inControl (off + k) = true)
    ∧ ((∃ k < n, inControl (off + k) = true) → n = 4)
    ∧ (isWrite = true → ¬ ∃ k < n, readOnly (off + k) = true) := by
  have none_iff : ∀ p : Nat → Bool, (List.range n).any p = false ↔ ∀ k < n, p k = false := by
    intro p
    simp [List.any_eq_false]
  simp only [admitted, Bool.and_eq_true, Bool.or_eq_true, beq_iff_eq, Bool.not_eq_true', List.all_eq_true, List.mem_range,
    Bool.and_eq_false_iff, none_iff]
  constructor
  · rintro ⟨⟨⟨⟨h1, h2⟩, h3⟩, h4⟩, h5⟩
    refine ⟨by tauto, h2, h3, ?_, ?_⟩
    · rintro ⟨k, hk, h⟩
      rcases h4 with h4 | h4
      · rw [h4 k hk] at h; cases h
      · exact h4
    · rintro hw ⟨k, hk, h⟩
      rcases h5 with h5 | h5
      · rw [hw] at h5; cases h5
      · rw [h5 k hk] at h; cases h
  · rintro ⟨h1, h2, h3, h4, h5⟩
    refine ⟨⟨⟨⟨by tauto, h2⟩, h3⟩, ?_⟩, ?_⟩
    · by_cases h : ∃ k < n, inControl (off + k) = true
      · exact .inr (h4 h)
      · exact .inl fun k hk => Bool.eq_false_iff.mpr fun hc => h ⟨k, hk, hc⟩
    · cases hw : isWrite
      · exact .inl rfl
      · exact .inr fun k hk => Bool.eq_false_iff.mpr fun hc => h5 hw ⟨k, hk, hc⟩

theorem inWindow_iff (off n : Nat) : inWindow off n = true ↔ off < 0x200 ∧ off + n ≤ 0x200 := by
  unfold inWindow
  rw [Bool.and_eq_true, decide_eq_true_eq, decide_eq_true_eq]
  rfl

end Sys2Proof.Machine
end

