-- ==== Sys2Proof/Tests/Slice0.lean ====
section
/-! SUPPORT. The model's own tests: decoding from words written out by hand, ill-formed fields, one or two single-command tests per
command with the values of 95_test_vectors.md, and a witness for every obligation that has hypotheses. -/

namespace Sys2Proof.Tests

open Sys2Proof.Machine

/-! ### Helpers -/

/-- The state after one command, the same state where it stops. -/
def after (i : Instr) (s : State) : State :=
  match exec i s with
  | .next t => t
  | .fault _ => s
  | .refused _ => s

/-- The state after one step, the same state where it stops. -/
def stepped (s : State) : State :=
  match step s with
  | .next t => t
  | .fault _ => s
  | .refused _ => s

/-- The state after `n` steps. -/
def steps : Nat → State → State
  | 0, s => s
  | n + 1, s => steps n (stepped s)

/-- The reset state with host events pending. -/
def host (q : List HostEvent) : State := State.reset.withPending q

/-- The reset state with `M[i]` set. -/
def withM (i : Idx) (x : WorkingMatrix) : State := State.reset.writeM i x

/-- The reset state with `V[i]` set. -/
def withV (i : Idx) (x : Vec2) : State := State.reset.writeV i x

/-- The reset state with origin, position, scale and rotation in V0..V3. -/
def srp (o p c e : Vec2) : State := (((State.reset.writeV 0 o).writeV 1 p).writeV 2 c).writeV 3 e

/-! ### Decoding: one word per constructor, bit by bit from 30_encoding.md R96 -/

theorem test_decode_ident : decode 0b00000001_0011_0000_0000_0000_0000_0000 = .ok (.ident 3) := by decide
theorem test_decode_rot : decode 0b00000010_0001_0010_0000_0000_0000_0000 = .ok (.rot 1 2) := by decide
theorem test_decode_trn : decode 0b00000011_0010_0001_0000_0000_0000_0000 = .ok (.trn 2 1) := by decide
theorem test_decode_scl : decode 0b00000100_0010_0011_0000_0000_0000_0000 = .ok (.scl 2 3) := by decide
theorem test_decode_pos : decode 0b00000101_0011_0010_0000_0000_0000_0000 = .ok (.pos 3 2) := by decide
theorem test_decode_mul : decode 0b00000110_0010_0000_0001_0000_0000_0000 = .ok (.mul 2 0 1) := by decide
theorem test_decode_trybg : decode 0b00010000_0000_0010_0000_0000_0000_0000 = .ok (.trybg 0 2) := by decide
theorem test_decode_tryobj : decode 0b00010001_0011_0001_0000_0000_0000_0000 = .ok (.tryobj 3 1) := by decide
theorem test_decode_wrpbg : decode 0b00010010_0001_0010_0000_0000_0000_0000 = .ok (.wrpbg 1 2) := by decide
theorem test_decode_wrpobj : decode 0b00010011_0001_0011_0000_0000_0000_0000 = .ok (.wrpobj 1 3) := by decide
theorem test_decode_widbg : decode 0b00010100_0011_0001_0000_0000_0000_0000 = .ok (.widbg 3 1) := by decide
theorem test_decode_widobj : decode 0b00010101_0000_0010_0000_0000_0000_0000 = .ok (.widobj 0 2) := by decide
theorem test_decode_bgsrp : decode 0b00100000_0001_0000_0001_0010_0011_0000 = .ok (.bgsrp 1 0 1 2 3) := by decide

/-- 95_test_vectors.md V-ENC-18 to V-ENC-23. -/
theorem test_decode_unknown_opcode :
    [0x00000000, 0xFFFFFFFF, 0x07000000, 0x16000000, 0x21000000, 0xAB000000].all
      (fun w => decide (decode w = .error .unknownOpcode)) = true := by decide

/-- 95_test_vectors.md V-ENC-24 to V-ENC-31. -/
theorem test_decode_bad_field :
    [0x01000001, 0x01400000, 0x01010000, 0x10040000, 0x06201100, 0x02111000, 0x20101238, 0x20101270].all
      (fun w => decide (decode w = .error .badField)) = true := by decide

/-- The host's question in the opcode table's numbering: bit 0 is bit 0 of the word. -/
theorem test_decode_table_word : decodeTableWord 32 0x06201000 = some (.mul 2 0 1) := by decide

theorem test_decode_table_word_refused : decodeTableWord 32 0x06201100 = none := by decide

/-- V-ENC-16, the other way. -/
theorem test_encode : encode (.bgsrp 1 0 1 2 3) = 0x20101230 := by decide

/-! ### WellFormed: one ill-formed term per check (30_encoding.md R98) -/

theorem test_wellformed_accepts : Fields.wellFormed ⟨0x20, 3, 3, 3, 3, 3, 0⟩ = true := by decide
theorem test_wellformed_refuses_unknown_opcode : Fields.wellFormed ⟨0x07, 0, 0, 0, 0, 0, 0⟩ = false := by decide
theorem test_wellformed_refuses_rd_above_3 : Fields.wellFormed ⟨0x01, 4, 0, 0, 0, 0, 0⟩ = false := by decide
theorem test_wellformed_refuses_ra_above_3 : Fields.wellFormed ⟨0x10, 0, 4, 0, 0, 0, 0⟩ = false := by decide
theorem test_wellformed_refuses_rb_above_3 : Fields.wellFormed ⟨0x06, 0, 0, 8, 0, 0, 0⟩ = false := by decide
theorem test_wellformed_refuses_rc_above_3 : Fields.wellFormed ⟨0x20, 0, 0, 0, 4, 0, 0⟩ = false := by decide
theorem test_wellformed_refuses_re_above_3 : Fields.wellFormed ⟨0x20, 1, 0, 1, 2, 7, 0⟩ = false := by decide
theorem test_wellformed_refuses_unused_ra : Fields.wellFormed ⟨0x01, 0, 1, 0, 0, 0, 0⟩ = false := by decide
theorem test_wellformed_refuses_unused_rb : Fields.wellFormed ⟨0x02, 1, 1, 1, 0, 0, 0⟩ = false := by decide
theorem test_wellformed_refuses_unused_rc : Fields.wellFormed ⟨0x06, 2, 0, 1, 1, 0, 0⟩ = false := by decide
theorem test_wellformed_refuses_unused_re : Fields.wellFormed ⟨0x06, 2, 0, 1, 0, 1, 0⟩ = false := by decide
theorem test_wellformed_refuses_zero_field : Fields.wellFormed ⟨0x01, 0, 0, 0, 0, 0, 1⟩ = false := by decide

/-! ### Fixed point (95_test_vectors.md 2.1) -/

/-- V-FX-2, V-FX-4, V-FX-7, V-FX-9, V-FX-10, V-FX-12, V-FX-15. -/
theorem test_fxmul : [fxmul 0xFFFFFE80 0x180, fxmul 0xFFFFFFFF 1, fxmul 0xFFFFFFAB 3, fxmul 0xFFFFFF01 0xFF,
      fxmul 0x7FFFFFFF 0x200, fxmul 0x80000000 0xFFFFFF00, fxmul 0x80000000 0x80000000]
    = [0xFFFFFDC0, 0xFFFFFFFF, 0xFFFFFFFF, 0xFFFFFF01, 0xFFFFFFFE, 0x80000000, 0] := by decide

/-- V-FX-24 to V-FX-32. -/
theorem test_fits8 : [fits8 0x7FFF, fits8 0x8000, fits8 0xFFFF8001, fits8 0xFFFF8000, fits8 0xFFFF7FFF, fits8 0x12345,
      fits8 0x80000000, fits8 0x7FFFFFFF, fits8 0]
    = [true, false, true, false, false, false, false, false, true] := by decide

/-! ### One command each (95_test_vectors.md 2.4 to 2.8) -/

/-- V-CON-1. -/
theorem test_ident : (after (.ident 2) (withM 2 ⟨1, 2, 3, 4, 5, 6⟩)).readM 2 = ⟨0x100, 0, 0, 0x100, 0, 0⟩ := by decide

/-- V-CON-10: a quarter turn; the integer part and lane y have no effect. -/
theorem test_rot : (after (.rot 1 2) (withV 2 ⟨0x12345640, 0xDEADBEEF⟩)).readM 1 = ⟨0, 0xFFFFFF00, 0x100, 0, 0, 0⟩ := by decide

/-- V-CON-8: minus a quarter of a turn. -/
theorem test_rot_negative_angle : (after (.rot 1 2) (withV 2 ⟨0xFFFFFFC0, 0⟩)).readM 1 = ⟨0, 0x100, 0xFFFFFF00, 0, 0, 0⟩ := by decide

/-- V-CON-11. -/
theorem test_trn : (after (.trn 0 0) (withV 0 ⟨0x1400, 0xA00⟩)).readM 0 = ⟨0x100, 0, 0, 0x100, 0xFFFFEC00, 0xFFFFF600⟩ := by decide

/-- V-CON-12: the least value is its own negation. -/
theorem test_trn_least : (after (.trn 0 0) (withV 0 ⟨0x80000000, 0⟩)).readM 0 = ⟨0x100, 0, 0, 0x100, 0x80000000, 0⟩ := by decide

/-- V-CON-15: no range check. -/
theorem test_scl : (after (.scl 0 0) (withV 0 ⟨0x8000, 0x80⟩)).readM 0 = ⟨0x8000, 0, 0, 0x80, 0, 0⟩ := by decide

/-- V-CON-16. -/
theorem test_pos : (after (.pos 3 2) (withM 2 ⟨9, 9, 9, 9, 0xFFFFEC00, 0xFFFFF600⟩)).readV 3 = ⟨0x1400, 0xA00⟩ := by decide

/-- The operand A of V-MUL-3. -/
def mulA : WorkingMatrix := ⟨0x155, 0xFFFFFF2B, 0x33, 0x1C7, 0xE11, 0xFFFFF3A5⟩

/-- The operand B of V-MUL-3. -/
def mulB : WorkingMatrix := ⟨0xB7, 0x14D, 0xFFFFFE99, 0x71, 0xFFFFD8F3, 0x270F⟩

/-- V-MUL-3: every product is floored by itself. -/
theorem test_mul : (after (.mul 2 0 1) ((withM 0 mulA).writeM 1 mulB)).readM 2
    = ⟨0x21D, 0x15C, 0xFFFFFDA5, 0x10A, 0xFFFFB98C, 0x3148⟩ := by decide

/-- V-MUL-3 into its own first operand: the sources are the old values (41_working_matrix.md R152). -/
theorem test_mul_in_place : (after (.mul 0 0 1) ((withM 0 mulA).writeM 1 mulB)).readM 0
    = ⟨0x21D, 0x15C, 0xFFFFFDA5, 0x10A, 0xFFFFB98C, 0x3148⟩ := by decide

/-- The matrix of V-NAR-2. -/
def wideMatrix : WorkingMatrix := ⟨0x7FFF, 0xFFFF8001, 0x8000, 0xFFFF8000, 0x12345678, 0x9ABCDEF0⟩

/-- The matrix of 95_test_vectors.md S5: every coefficient fits, two of them barely. -/
def fittingMatrix : WorkingMatrix := ⟨0x7FFF, 0xFFFF8001, 0x80, 0xFFFFFF80, 0x12345678, 0x9ABCDEF0⟩

/-- S5. -/
theorem test_trybg : (after (.trybg 0 2) (withM 2 fittingMatrix)).readB 0
    = ⟨0x7FFF, 0x8001, 0x0080, 0xFF80, 0x12345678, 0x9ABCDEF0⟩ := by decide

/-- V-NAR-2. -/
theorem test_trybg_overflow : (after (.trybg 1 2) (withM 2 wideMatrix)).ctl = ⟨true, true, false, 1, 2, 0x10120000⟩ := by decide

/-- V-NAR-6. -/
theorem test_tryobj : (after (.tryobj 3 1) (withM 1 ⟨0, 0xFFFFFD00, 0x200, 0, 0x500, 0x600⟩)).readO 3
    = ⟨0x0000, 0xFD00, 0x0200, 0x0000⟩ := by decide

/-- V-EXC-4. -/
theorem test_tryobj_overflow : (after (.tryobj 0 1) (withM 1 ⟨0x100, 0, 0xFFFF8000, 0x100, 0, 0⟩)).ctl
    = ⟨true, true, false, 1, 2, 0x11010000⟩ := by decide

/-- V-NAR-3. -/
theorem test_wrpbg : (after (.wrpbg 1 2) (withM 2 wideMatrix)).readB 1
    = ⟨0x7FFF, 0x8001, 0x8000, 0x8000, 0x12345678, 0x9ABCDEF0⟩ := by decide

/-- V-NAR-5. -/
theorem test_wrpobj : (after (.wrpobj 0 0) (withM 0 ⟨0x12C00, 0x12345, 0xFFFE0080, 0x80000001, 1, 2⟩)).readO 0
    = ⟨0x2C00, 0x2345, 0x0080, 0x0001⟩ := by decide

/-- V-WID-1. -/
theorem test_widbg : (after (.widbg 3 1) (State.reset.writeB 1 ⟨0x7FFF, 0x8001, 0x8000, 0x0100, 0x12345678, 0x9ABCDEF0⟩)).readM 3
    = ⟨0x7FFF, 0xFFFF8001, 0xFFFF8000, 0x100, 0x12345678, 0x9ABCDEF0⟩ := by decide

/-- V-WID-3. -/
theorem test_widobj : (after (.widobj 0 2) (State.reset.writeO 2 ⟨0xFFFF, 0x0001, 0x8000, 0x7FFF⟩)).readM 0
    = ⟨0xFFFFFFFF, 1, 0xFFFF8000, 0x7FFF, 0, 0⟩ := by decide

/-- V-SRP-4: different lanes everywhere. -/
theorem test_bgsrp : (after (.bgsrp 1 0 1 2 3)
      (srp ⟨0x1080, 0xFFFFFCC0⟩ ⟨0x7C0, 0xFFFFFD80⟩ ⟨0x80, 0x180⟩ ⟨0xC0, 0⟩)).readB 1
    = ⟨0x0000, 0x0080, 0xFE80, 0x0000, 0x11C0, 0x860⟩ := by decide

/-- V-SRP-6. -/
theorem test_bgsrp_overflow : (after (.bgsrp 1 0 1 2 3) (srp ⟨0, 0⟩ ⟨0, 0⟩ ⟨0x100, 0xFFFF8000⟩ ⟨0, 0⟩)).ctl.causeWord = 0x51 := by
  decide

/-! ### One transaction each (95_test_vectors.md 2.3 and 2.8) -/

/-- The state of V-MEM-25 to V-MEM-30. -/
def memState : State := State.reset.writeB 1 ⟨0x0000, 0xFE00, 0x0200, 0x0000, 0x1C00, 0xFFFFE000⟩

/-- V-MEM-25, V-MEM-26, V-MEM-27, V-MEM-30. -/
theorem test_read : [(0x0D2, 2), (0x0D3, 1), (0x0D0, 4), (0x0DC, 4)].map
      (fun q => (memRead q.1 q.2 memState).port.response)
    = [some (.okData 0xFE00), some (.okData 0xFE), some (.okData 0xFE000000), some (.okData 0xFFFFE000)] := by decide

/-- V-MEM-7 to V-MEM-10, V-MEM-12, V-MEM-14, V-MEM-16, V-MEM-17, V-MEM-19, V-MEM-20. -/
theorem test_read_err : [(0x001, 2), (0x002, 4), (0x018, 4), (0x01C, 1), (0x0A0, 4), (0x120, 2), (0x190, 4), (0x1FC, 4),
      (0x180, 2), (0x184, 1)].any (fun q => admitted false q.1 q.2) = false := by decide

/-- V-MEM-11, V-MEM-13, V-MEM-15, V-MEM-18. -/
theorem test_read_mapped : [(0x017, 1), (0x09C, 4), (0x11F, 1), (0x180, 4)].all (fun q => admitted false q.1 q.2) = true := by decide

/-- V-MEM-21 to V-MEM-24. -/
theorem test_write_err : [(0x180, 2), (0x188, 4), (0x18C, 4), (0x184, 2)].any (fun q => admitted true q.1 q.2) = false := by decide

/-- V-MEM-5: one byte of a field. -/
theorem test_write_byte : ((stepped ((withM 0 ⟨0x11223344, 0, 0, 0, 0, 0⟩).withPending [.write 0x001 1 0xAA])).readM 0).a
    = 0x1122AA44 := by decide

/-- V-MEM-6: only the low bytes of the value are used. -/
theorem test_write_half : ((stepped ((withM 0 ⟨0x1122AA44, 0, 0, 0, 0, 0⟩).withPending [.write 0x002 2 0xFFFFBBCC])).readM 0).a
    = 0xBBCCAA44 := by decide

/-- 95_test_vectors.md P2 row 1: a 4-byte write at 0x108 sets O1.a and O1.b. -/
theorem test_write_object : (stepped (host [.write 0x108 4 0x22221111])).readO 1 = ⟨0x1111, 0x2222, 0, 0⟩ := by decide

/-- V-EXC-5: the reason of an illegal word; OVF and SOVF stay. -/
theorem test_illegal : (stepped ⟨DataRegs.zero, ⟨true, true, false, 1, 2, 0x11010000⟩, ⟨[.write 0x180 4 0x10040000], none⟩⟩).ctl
    = ⟨true, true, true, 2, 1, 0x10040000⟩ := by decide

/-- V-EXC-7: success clears OVF only. -/
theorem test_success_clears_ovf : (stepped ⟨DataRegs.zero, ⟨true, true, true, 2, 0, 0xAB000000⟩,
      ⟨[.write 0x180 4 0x11020000], none⟩⟩).ctl = ⟨false, true, true, 2, 0, 0xAB000000⟩ := by decide

/-- V-EXC-8: clearing SOVF by writing one. -/
theorem test_clear_sovf : (stepped ⟨DataRegs.zero, ⟨false, true, true, 2, 0, 0xAB000000⟩, ⟨[.write 0x184 4 0x2], none⟩⟩).ctl
    = ⟨false, false, true, 2, 0, 0xAB000000⟩ := by decide

/-- V-EXC-9: bits 1 and 2 of the value are zero, so nothing is cleared. -/
theorem test_clear_nothing : (stepped ⟨DataRegs.zero, ⟨false, false, true, 2, 0, 0xAB000000⟩,
      ⟨[.write 0x184 4 0xFFFFFFF9], none⟩⟩).ctl = ⟨false, false, true, 2, 0, 0xAB000000⟩ := by decide

/-- V-RST-2, its first half, through the host's hook: a step right after reset runs the word. -/
theorem test_fetch_word : (stepped (State.reset.withFetchWord 32 0x01000000)).readM 0 = ⟨0x100, 0, 0, 0x100, 0, 0⟩ := by decide

/-- V-RST-1: STATUS, CAUSE, ECMD and CMD read zero after reset. -/
theorem test_reset_reads : [0x180, 0x184, 0x188, 0x18C].map (fun o => (memRead o 4 State.reset).port.response)
    = [some (.okData 0), some (.okData 0), some (.okData 0), some (.okData 0)] := by decide

/-! ### Witnesses: concrete states and operands that meet an obligation's hypotheses, clause by clause -/

/-- FxmulIsFlooredProductOver256, second clause: an exact and a floored negative product. -/
theorem test_witness_fxmul : (256 * 0x240 ≤ (0x180#32).toInt * (0x180#32).toInt ∧ (0x180#32).toInt * (0x180#32).toInt < 256 * (0x240 + 1))
    ∧ (256 * (-1) ≤ (0xFFFFFFFF#32).toInt * (1#32).toInt ∧ (0xFFFFFFFF#32).toInt * (1#32).toInt < 256 * (-1 + 1)) := by decide

/-- Fits8AcceptsMagnitudeBelow128, third clause, at both ends. -/
theorem test_witness_fits8 : fits8 0x7FFF = true ∧ fits8 0xFFFF8001 = true := by decide

/-- PositionLawsOfMatmul, second clause: a matrix with zero translation that is not the identity. -/
theorem test_witness_position : (rotationMatrix 64).x = 0 ∧ (rotationMatrix 64).y = 0 ∧ rotationMatrix 64 ≠ identityMatrix := by decide

/-- HalfTurnSquaredIsIdentity: minus half a turn, with an integer part. -/
theorem test_witness_half_turn : ((withV 1 ⟨0xFFFFFF80, 7⟩).readV 1).x.extractLsb' 0 8 = 0x80#8 := by decide

/-- TranslationIsRecoveredThroughMul. -/
theorem test_witness_translation : (1 : Idx) ≠ 0 ∧ ((withM 1 (rotationMatrix 128)).readM 1).x = 0
    ∧ ((withM 1 (rotationMatrix 128)).readM 1).y = 0 := by decide

/-- TrybgNarrowsOrRaisesOverflow, TryobjNarrowsOrRaisesOverflow and NarrowWidenRoundTrips: four coefficients that fit, at both ends. -/
theorem test_witness_coefficients_fit : fits8 ((withM 2 fittingMatrix).readM 2).a = true
    ∧ fits8 ((withM 2 fittingMatrix).readM 2).b = true ∧ fits8 ((withM 2 fittingMatrix).readM 2).c = true
    ∧ fits8 ((withM 2 fittingMatrix).readM 2).d = true := by decide

/-- The same statements, overflow clause: INFO 0, 1, 2, 3, each by a boundary value. -/
theorem test_witness_coefficients_overflow :
    fits8 ((withM 0 ⟨0x8000, 0, 0, 0, 0, 0⟩).readM 0).a = false
    ∧ (fits8 ((withM 0 ⟨0x7FFF, 0xFFFF8000, 0, 0, 0, 0⟩).readM 0).a = true
        ∧ fits8 ((withM 0 ⟨0x7FFF, 0xFFFF8000, 0, 0, 0, 0⟩).readM 0).b = false)
    ∧ (fits8 ((withM 2 wideMatrix).readM 2).a = true ∧ fits8 ((withM 2 wideMatrix).readM 2).b = true
        ∧ fits8 ((withM 2 wideMatrix).readM 2).c = false)
    ∧ (fits8 ((withM 0 ⟨0, 0, 0, 0xFFFF8000, 0, 0⟩).readM 0).a = true ∧ fits8 ((withM 0 ⟨0, 0, 0, 0xFFFF8000, 0, 0⟩).readM 0).b = true
        ∧ fits8 ((withM 0 ⟨0, 0, 0, 0xFFFF8000, 0, 0⟩).readM 0).c = true
        ∧ fits8 ((withM 0 ⟨0, 0, 0, 0xFFFF8000, 0, 0⟩).readM 0).d = false) := by decide

/-- NarrowWidenRoundTrips, last clauses: no coefficient, and some coefficient, holds 0x8000. -/
theorem test_witness_round_trip :
    (memState.readB 1).a ≠ 0x8000 ∧ (memState.readB 1).b ≠ 0x8000 ∧ (memState.readB 1).c ≠ 0x8000 ∧ (memState.readB 1).d ≠ 0x8000
    ∧ ((State.reset.writeB 1 ⟨0x7FFF, 0x8001, 0x8000, 0x100, 0, 0⟩).readB 1).c = 0x8000 := by decide

/-- OverflowBoundaryOfNarrowing: only the last coefficient fails. -/
theorem test_witness_overflow_boundary :
    (fits8 ((withM 0 ⟨0, 0, 0, 0x8000, 0, 0⟩).readM 0).a && fits8 ((withM 0 ⟨0, 0, 0, 0x8000, 0, 0⟩).readM 0).b
      && fits8 ((withM 0 ⟨0, 0, 0, 0x8000, 0, 0⟩).readM 0).c && fits8 ((withM 0 ⟨0, 0, 0, 0x8000, 0, 0⟩).readM 0).d) = false := by decide

/-- BgsrpComposesAndNarrows, completing: scale lanes at both ends of the range. -/
theorem test_witness_bgsrp : fits8 ((srp ⟨0, 0⟩ ⟨0, 0⟩ ⟨0x7FFF, 0xFFFF8001⟩ ⟨0x80, 0⟩).readV 2).x = true
    ∧ fits8 ((srp ⟨0, 0⟩ ⟨0, 0⟩ ⟨0x7FFF, 0xFFFF8001⟩ ⟨0x80, 0⟩).readV 2).y = true := by decide

/-- BgsrpComposesAndNarrows and BgsrpRaisesOverflowOnUnfitScale: INFO 4 and INFO 5 at the boundary (V-SRP-5, V-SRP-6), and a value for the last clause. -/
theorem test_witness_bgsrp_overflow : fits8 ((srp ⟨0, 0⟩ ⟨0, 0⟩ ⟨0x8000, 0x100⟩ ⟨0, 0⟩).readV 2).x = false
    ∧ (fits8 ((srp ⟨0, 0⟩ ⟨0, 0⟩ ⟨0x100, 0xFFFF8000⟩ ⟨0, 0⟩).readV 2).x = true
        ∧ fits8 ((srp ⟨0, 0⟩ ⟨0, 0⟩ ⟨0x100, 0xFFFF8000⟩ ⟨0, 0⟩).readV 2).y = false)
    ∧ fits8 0xFFFF8001 = true := by decide

/-- BgsrpEqualsItsCommandSequence: the scratch vector is the origin's own register (95_test_vectors.md P4). -/
theorem test_witness_bgsrp_sequence : (0 : Idx) ≠ 1 ∧ (0 : Idx) ≠ 2 ∧ (0 : Idx) ≠ 3
    ∧ fits8 ((srp ⟨0x800, 0x800⟩ ⟨0x1400, 0xA00⟩ ⟨0x200, 0x200⟩ ⟨0x40, 0⟩).readV 2).x = true
    ∧ fits8 ((srp ⟨0x800, 0x800⟩ ⟨0x1400, 0xA00⟩ ⟨0x200, 0x200⟩ ⟨0x40, 0⟩).readV 2).y = true := by decide

/-- CommandRegisterFrame: a command that is not fallible, one that completes, one that overflows. -/
theorem test_witness_frame : (exec (.trn 0 0) State.reset = .next (after (.trn 0 0) State.reset) ∧ fallible (.trn 0 0) = false)
    ∧ (exec (.trybg 0 2) (withM 2 fittingMatrix) = .next (after (.trybg 0 2) (withM 2 fittingMatrix)) ∧ fallible (.trybg 0 2) = true)
    ∧ (exec (.trybg 1 2) (withM 2 wideMatrix) = .next (after (.trybg 1 2) (withM 2 wideMatrix)) ∧ fallible (.trybg 1 2) = true) :=
  ⟨⟨rfl, rfl⟩, ⟨rfl, rfl⟩, ⟨rfl, rfl⟩⟩

/-- CommandByteFrame: a data byte just past the destination of a fallible command, and a control byte under one that is not. -/
theorem test_witness_byte_frame :
    (exec (.trybg 0 2) (withM 2 fittingMatrix) = .next (after (.trybg 0 2) (withM 2 fittingMatrix))
      ∧ ¬ (dest (.trybg 0 2)).covers 0x0D0 ∧ inControl 0x0D0 = false)
    ∧ (exec (.ident 0) State.reset = .next (after (.ident 0) State.reset) ∧ ¬ (dest (.ident 0)).covers 0x184
      ∧ fallible (.ident 0) = false) :=
  ⟨⟨rfl, by simp [Reg.covers, Reg.offset, Reg.size, dest], rfl⟩, ⟨rfl, by simp [Reg.covers, Reg.offset, Reg.size, dest], rfl⟩⟩

/-- CommandsReadNoControlState, its fallible clause. -/
theorem test_witness_fallible : fallible (.tryobj 0 0) = true ∧ fallible (.bgsrp 0 0 0 0 0) = true := by decide

/-- WindowMapOfRegisters: the first and last unmapped offset of each hole. -/
theorem test_witness_unmapped : [0x18, 0x1F, 0x78, 0x7F, 0x0A0, 0x0BF, 0x120, 0x17F, 0x190, 0x1FF].all
    (fun off => decide (off < 0x080 ∧ 0x18 ≤ off % 0x20 ∨ 0x0A0 ≤ off ∧ off < 0x0C0 ∨ 0x120 ≤ off ∧ off < 0x180 ∨ 0x190 ≤ off)) = true := by
  decide

/-- AdmissionConditions, second clause, and the hypotheses of the transaction statements: the last data word, the first and the last
control register. -/
theorem test_witness_admitted : admitted true 0x11C 4 = true ∧ admitted true 0x180 4 = true ∧ admitted false 0x18C 4 = true := by decide

/-- RejectedTransactionChangesNothing: a misaligned read, an unmapped read, and writes to a part of CMD and to CAUSE. -/
theorem test_witness_rejected :
    (inWindow 0x002 4 = true ∧ (host [.read 0x002 4]).port.pending = .read 0x002 4 :: [] ∧ admitted false 0x002 4 = false)
    ∧ (inWindow 0x1FC 4 = true ∧ (host [.read 0x1FC 4]).port.pending = .read 0x1FC 4 :: [] ∧ admitted false 0x1FC 4 = false)
    ∧ (inWindow 0x180 2 = true ∧ (host [.write 0x180 2 0x0100]).port.pending = .write 0x180 2 0x0100 :: []
        ∧ admitted true 0x180 2 = false)
    ∧ (inWindow 0x188 4 = true ∧ (host [.write 0x188 4 0]).port.pending = .write 0x188 4 0 :: [] ∧ admitted true 0x188 4 = false) := by
  decide

/-- ReadReturnsBytesAndChangesNothing, and RejectedTransactionChangesNothing's admitted read: the last mapped data byte. -/
theorem test_witness_read : (host [.read 0x11F 1]).port.pending = .read 0x11F 1 :: [] ∧ admitted false 0x11F 1 = true
    ∧ inWindow 0x11F 1 = true := by decide

/-- ControlRegisterReadValues: the four reads. -/
theorem test_witness_control_reads : (host [.read 0x180 4]).port.pending = .read 0x180 4 :: []
    ∧ (host [.read 0x184 4]).port.pending = .read 0x184 4 :: [] ∧ (host [.read 0x188 4]).port.pending = .read 0x188 4 :: []
    ∧ (host [.read 0x18C 4]).port.pending = .read 0x18C 4 :: [] := by decide

/-- DataWriteReplacesAddressedBytes, ReadAfterWriteReturnsValue, and RejectedTransactionChangesNothing's admitted write: the last data word, written then read. -/
theorem test_witness_data_write :
    (host [.write 0x11C 4 0x80007FFF, .read 0x11C 4]).port.pending = .write 0x11C 4 0x80007FFF :: .read 0x11C 4 :: []
    ∧ admitted true 0x11C 4 = true ∧ 0x11C < 0x180 ∧ inWindow 0x11C 4 = true := by decide

/-- StepRunsDecodedCommand. -/
theorem test_witness_step_runs : (host [.write 0x180 4 0x20333330]).port.pending = .write 0x180 4 0x20333330 :: []
    ∧ decode 0x20333330 = .ok (.bgsrp 3 3 3 3 3) := by decide

/-- IllegalWordIsRecorded: one word for each reason. -/
theorem test_witness_illegal : ((host [.write 0x180 4 0xFFFFFFFF]).port.pending = .write 0x180 4 0xFFFFFFFF :: []
      ∧ decode 0xFFFFFFFF = .error .unknownOpcode)
    ∧ ((host [.write 0x180 4 0x01400000]).port.pending = .write 0x180 4 0x01400000 :: [] ∧ decode 0x01400000 = .error .badField) := by
  decide

/-- StatusWriteClearsStickyFlags. -/
theorem test_witness_status_write : (host [.write 0x184 4 6]).port.pending = .write 0x184 4 6 :: [] := by decide

/-- Both sticky flags set, with one event pending. -/
def sticky (e : HostEvent) : State := ⟨DataRegs.zero, ⟨true, true, true, 2, 0, 0⟩, ⟨[e], none⟩⟩

/-- StickyFlagsClearedOnlyByHost: SOVF cleared by a STATUS write, ILL cleared by one, both cleared by a reset. -/
theorem test_witness_sticky :
    (step (sticky (.write 0x184 4 2)) = .next (stepped (sticky (.write 0x184 4 2)))
      ∧ (sticky (.write 0x184 4 2)).ctl.sovf = true ∧ (stepped (sticky (.write 0x184 4 2))).ctl.sovf = false)
    ∧ (step (sticky (.write 0x184 4 4)) = .next (stepped (sticky (.write 0x184 4 4)))
      ∧ (sticky (.write 0x184 4 4)).ctl.ill = true ∧ (stepped (sticky (.write 0x184 4 4))).ctl.ill = false)
    ∧ (step (sticky (.reset DataRegs.zero)) = .next (stepped (sticky (.reset DataRegs.zero)))
      ∧ (stepped (sticky (.reset DataRegs.zero))).ctl.sovf = false ∧ (stepped (sticky (.reset DataRegs.zero))).ctl.ill = false) :=
  ⟨⟨rfl, by decide, by decide⟩, ⟨rfl, by decide, by decide⟩, ⟨rfl, by decide, by decide⟩⟩

/-- OvfWrittenOnlyByFallibleCommands: a completing TRYOBJ clears OVF, and a reset does. -/
theorem test_witness_ovf :
    (step (sticky (.write 0x180 4 0x11020000)) = .next (stepped (sticky (.write 0x180 4 0x11020000)))
      ∧ (stepped (sticky (.write 0x180 4 0x11020000))).ctl.ovf ≠ (sticky (.write 0x180 4 0x11020000)).ctl.ovf)
    ∧ (stepped (sticky (.reset DataRegs.zero))).ctl.ovf ≠ (sticky (.reset DataRegs.zero)).ctl.ovf :=
  ⟨⟨rfl, by decide⟩, by decide⟩

/-- ExceptionRecordWrittenOnlyByRaise: an illegal word, and an Overflow. -/
theorem test_witness_record :
    (step (host [.write 0x180 4 0xAB000000]) = .next (stepped (host [.write 0x180 4 0xAB000000]))
      ∧ (stepped (host [.write 0x180 4 0xAB000000])).ctl.ecmd ≠ (host [.write 0x180 4 0xAB000000]).ctl.ecmd)
    ∧ (step ((withM 0 wideMatrix).withPending [.write 0x180 4 0x10000000])
        = .next (stepped ((withM 0 wideMatrix).withPending [.write 0x180 4 0x10000000]))
      ∧ (stepped ((withM 0 wideMatrix).withPending [.write 0x180 4 0x10000000])).ctl.info ≠ (withM 0 wideMatrix).ctl.info) :=
  ⟨⟨rfl, by decide⟩, ⟨rfl, by decide⟩⟩

/-- AnswerableRunsNeverStop: a safe run with a command, a rejected read and a reset pending, and a step of it. -/
theorem test_witness_safe_run : SafeRun (host [.write 0x180 4 0, .read 0x1FC 4, .reset DataRegs.zero])
    ∧ step (host [.write 0x180 4 0, .read 0x1FC 4, .reset DataRegs.zero])
      = .next (stepped (host [.write 0x180 4 0, .read 0x1FC 4, .reset DataRegs.zero])) :=
  ⟨by simp [SafeRun, host, State.withPending, Answerable, inWindow, Config.windowSize], rfl⟩

/-- OnlyForeignTransactionsAreRefused: a transaction just past the window, and one across its end, are refused. -/
theorem test_witness_foreign : step (host [.read 0x200 4]) = .refused .outsideWindow
    ∧ step (host [.write 0x1FE 4 0]) = .refused .outsideWindow := ⟨rfl, rfl⟩

/-- ExceptionRecordStaysConsistent: a consistent record of each kind, and a step from it. -/
theorem test_witness_consistent :
    ConsistentRecord (host [.write 0x180 4 0x11020000]).ctl
    ∧ ConsistentRecord ⟨true, true, false, 1, 5, 0x20000100⟩
    ∧ ConsistentRecord (sticky (.write 0x180 4 0x11020000)).ctl
    ∧ step (sticky (.write 0x180 4 0x11020000)) = .next (stepped (sticky (.write 0x180 4 0x11020000))) :=
  ⟨.inl rfl, .inr (.inl ⟨rfl, .bgsrp 0 0 0 1 0, by decide, by simp [overflowInfo]⟩), .inr (.inr ⟨rfl, .unknownOpcode, by decide, rfl⟩), rfl⟩

/-- ResetLeavesResetDataAndClearControl: a reset over dirty flags. -/
theorem test_witness_reset : (sticky (.reset DataRegs.zero)).port.pending = .reset DataRegs.zero :: [] := by decide

/-! ### 95_test_vectors.md P2, its fallback: an overflow, seen in STATUS, then the wrapping conversion -/

/-- P2 rows 6 to 8. -/
theorem test_overflow_then_wrap :
    (steps 3 ((withM 0 ⟨0x8000, 0, 0, 0x80, 0, 0⟩).withPending
      [.write 0x180 4 0x11100000, .read 0x184 4, .write 0x180 4 0x13100000])).readO 1 = ⟨0x8000, 0, 0, 0x0080⟩ := by decide

end Sys2Proof.Tests
end

