-- ==== Sys2Proof/Proofs/Status.lean ====
section
/-! What a control register's word reads as, and the STATUS register: its write and its layout (10_state.md R36, R38). -/

namespace Sys2Proof.Machine

/-- A word is assembled from its own four bytes (20_memory.md R64). -/
theorem wordOfBytes_map_byteOf (v : Word) : wordOfBytes ((List.range 4).map (byteOf v)) = v :=
  wide_ext_bytes fun k hk => by simp [byteOf_wordOfBytes _ k hk, hk]

theorem readByte_control (s : State) (off k : Nat) (hc : inControl off = true) (h4 : off % 4 = 0) (hk : k < 4) :
    s.readByte (off + k) = some (byteOf (s.ctl.valueAt off) k) := by
  obtain ⟨hlo, hhi⟩ : 0x180 ≤ off ∧ off < 0x190 := by simpa [inControl] using hc
  have hin : inControl (off + k) = true := by
    simp only [inControl, Bool.and_eq_true, decide_eq_true_eq]
    omega
  have hmod : (off + k) % 4 = k := by omega
  simp [State.readByte, locate_none_of_ge (off + k) (by omega), hin, hmod]

/-- A whole read of a control register gives the register's value (10_state.md R36). -/
theorem readWindow_control (s : State) (off : Nat) (hc : inControl off = true) (h4 : off % 4 = 0) :
    s.readWindow off 4 = s.ctl.valueAt off := by
  have hbytes : (List.range 4).map (fun k => (s.readByte (off + k)).getD 0) = (List.range 4).map (byteOf (s.ctl.valueAt off)) :=
    List.map_congr_left fun k hk => by simp [readByte_control s off k hc h4 (List.mem_range.mp hk)]
  rw [State.readWindow, hbytes, wordOfBytes_map_byteOf]

theorem statusWord_eq_ofNat (c : Control) :
    c.statusWord = BitVec.ofNat 32 (c.ovf.toNat + 2 * c.sovf.toNat + 4 * c.ill.toNat) := by
  have h : ∀ ovf sovf ill : Bool, flagBit ill 2 ||| flagBit sovf 1 ||| flagBit ovf 0
      = BitVec.ofNat 32 (ovf.toNat + 2 * sovf.toNat + 4 * ill.toNat) := by decide
  exact h c.ovf c.sovf c.ill

/-- A whole write to STATUS is admitted, clears flags and is answered OK (20_memory.md R67). -/
theorem memWrite_status (v : Word) (s : State) :
    memWrite statusOffset 4 v s = .next ((s.respond .ok).mapCtl (Control.clearFlags v)) := by
  have ha : admitted true statusOffset 4 = true := by decide
  have hc : statusOffset ≠ cmdOffset := by decide
  rw [memWrite, if_pos ha, if_neg hc, if_pos rfl]

theorem step_of_status_write (s : State) (v : Word) (rest : List HostEvent) (h : s.port.pending = .write 0x184 4 v :: rest) :
    step s = .next ⟨s.regs, s.ctl.clearFlags v, ⟨rest, some .ok⟩⟩ := by
  have hw : inWindow statusOffset 4 = true := by decide
  calc step s = perform (.write statusOffset 4 v) (s.withPending rest) := step_of_cons s _ rest h
    _ = memWrite statusOffset 4 v (s.withPending rest) := by rw [perform, if_pos hw]
    _ = .next (((s.withPending rest).respond .ok).mapCtl (Control.clearFlags v)) := memWrite_status v _
    _ = .next ⟨s.regs, s.ctl.clearFlags v, ⟨rest, some .ok⟩⟩ := rfl

/-- Settles O52: the write is the STATUS case of a step, the read a control register's value. -/
theorem statusWriteClearsStickyFlags : Obligations.StatusWriteClearsStickyFlags := by
  refine ⟨step_of_status_write, fun s => ?_⟩
  calc s.readWindow 0x184 4 = s.ctl.valueAt statusOffset := readWindow_control s statusOffset (by decide) (by decide)
    _ = s.ctl.statusWord := if_pos rfl
    _ = BitVec.ofNat 32 (s.ctl.ovf.toNat + 2 * s.ctl.sovf.toNat + 4 * s.ctl.ill.toNat) := statusWord_eq_ofNat s.ctl

end Sys2Proof.Machine
end

/-! The window as the host sees it (20_memory.md): what stands at each offset, what an admitted read answers, and which transactions
may be repeated. -/

namespace Sys2Proof.Machine

/-! ### The map, read byte by byte (R63, R64) -/

theorem readByte_slot (s : State) (t : Slot) (k : Nat) (hk : k < t.size) :
    s.readByte (t.offset + k) = some (s.regs.slotByte t k) := by
  simp [State.readByte, locate_slot t k hk]

/-- Where the map finds no field and no control register stands, nothing is mapped. -/
theorem readByte_unmapped (s : State) (off : Nat) (hd : locate off = none) (hc : inControl off = false) : s.readByte off = none := by
  simp [State.readByte, hd, hc]

/-- A mapped byte has a value in every state. -/
theorem readByte_mapped (s : State) (off : Nat) (h : inData off = true ∨ inControl off = true) : ∃ b, s.readByte off = some b := by
  unfold State.readByte
  cases hl : locate off with
  | some p => exact ⟨_, rfl⟩
  | none =>
    have hc : inControl off = true := h.resolve_left (by simp [inData, hl])
    exact ⟨_, if_pos hc⟩

theorem inControl_iff (off : Nat) : inControl off = true ↔ 0x180 ≤ off ∧ off < 0x190 := by
  simp [inControl]

/-- The pads of the working matrices, eight bytes after each (R63). -/
theorem locate_pad (off : Nat) (h : off < 0x080) (hp : 0x18 ≤ off % 0x20) : locate off = none := by
  unfold locate
  rw [if_pos h]
  simp only
  rw [if_neg (by omega), if_neg (by omega)]

/-- The gap between the vectors and the background matrices (R63). -/
theorem locate_gap (off : Nat) (hlo : 0x0A0 ≤ off) (hhi : off < 0x0C0) : locate off = none := by
  unfold locate
  rw [if_neg (by omega), if_neg (by omega), if_pos hhi]

/-- Settles O40: each field's bytes by the map's inverse, each hole by the map. -/
theorem windowMapOfRegisters : Obligations.WindowMapOfRegisters := by
  intro s i
  refine ⟨fun k hk => ?_, fun k hk => ?_, fun off h => ?_⟩
  · have field (t : Slot) (ht : t.size = 4) := readByte_slot s t k (ht ▸ hk)
    have control := fun off hc h4 => readByte_control s off k hc h4 hk
    exact ⟨field (.mCoef i .a) rfl, field (.mCoef i .b) rfl, field (.mCoef i .c) rfl, field (.mCoef i .d) rfl,
      field (.mTrans i .x) rfl, field (.mTrans i .y) rfl, field (.vLane i .x) rfl, field (.vLane i .y) rfl,
      field (.bTrans i .x) rfl, field (.bTrans i .y) rfl,
      (control cmdOffset rfl rfl).trans (by simp [Control.valueAt, byteOf, cmdOffset, statusOffset, causeOffset, ecmdOffset]),
      control statusOffset rfl rfl, control causeOffset rfl rfl, control ecmdOffset rfl rfl⟩
  · have field (t : Slot) (ht : t.size = 2) := readByte_slot s t k (ht ▸ hk)
    exact ⟨field (.bCoef i .a) rfl, field (.bCoef i .b) rfl, field (.bCoef i .c) rfl, field (.bCoef i .d) rfl,
      field (.oCoef i .a) rfl, field (.oCoef i .b) rfl, field (.oCoef i .c) rfl, field (.oCoef i .d) rfl⟩
  · have hc : inControl off = false := by
      rw [Bool.eq_false_iff, Ne, inControl_iff]
      omega
    refine readByte_unmapped s off ?_ hc
    rcases h with ⟨hlt, hpad⟩ | ⟨hlo, hhi⟩ | ⟨hlo, -⟩ | hlo
    · exact locate_pad off hlt hpad
    · exact locate_gap off hlo hhi
    · exact locate_none_of_ge off hlo
    · exact locate_none_of_ge off (by omega)

/-- The bytes of fields in the order given, each field's in ascending order (R64). -/
theorem readByte_of_slots (s : State) (ts : List Slot) :
    ts.flatMap (fun t => (List.range t.size).map fun k => s.readByte (t.offset + k))
      = ts.flatMap fun t => (List.range t.size).map fun k => some (s.regs.slotByte t k) := by
  congr 1
  funext t
  exact List.map_congr_left fun k hk => readByte_slot s t k (List.mem_range.mp hk)

/-- Settles O49: each image is its fields' bytes, one field after the other. -/
theorem parameterBlockImages : Obligations.ParameterBlockImages := fun s i =>
  ⟨readByte_of_slots s [.bCoef i .a, .bCoef i .b, .bCoef i .c, .bCoef i .d, .bTrans i .x, .bTrans i .y],
    readByte_of_slots s [.oCoef i .a, .oCoef i .b, .oCoef i .c, .oCoef i .d]⟩

/-! ### An admitted transaction (R65, R66) -/

/-- An admitted transaction has at least one byte, and all its bytes lie in the window. -/
theorem inWindow_of_admitted (isWrite : Bool) (off n : Nat) (h : admitted isWrite off n = true) : inWindow off n = true := by
  obtain ⟨hsize, -, hmapped, -, -⟩ := (admitted_iff isWrite off n).mp h
  have hlast : off + (n - 1) < 0x190 := by
    rcases hmapped (n - 1) (by omega) with hd | hc
    · by_contra hge
      simp [inData, locate_none_of_ge (off + (n - 1)) (by omega)] at hd
    · exact ((inControl_iff _).mp hc).2
  rw [inWindow_iff]
  omega

/-- An admitted transaction reaches only data bytes, or starts in the control region (R65). -/
theorem admitted_data_or_control (isWrite : Bool) (off n : Nat) (h : admitted isWrite off n = true) :
    (∀ k < n, inData (off + k) = true) ∨ 0x180 ≤ off := by
  obtain ⟨-, halign, hmapped, hwhole, -⟩ := (admitted_iff isWrite off n).mp h
  by_cases hc : ∃ k < n, inControl (off + k) = true
  · obtain rfl := hwhole hc
    obtain ⟨k, hk, hk'⟩ := hc
    have hlo := ((inControl_iff _).mp hk').1
    exact .inr (by omega)
  · exact .inl fun k hk => (hmapped k hk).resolve_right fun hk' => hc ⟨k, hk, hk'⟩

/-- Byte `k` of the value a read returns is the byte at its offset plus `k`, where something is mapped (R64). -/
theorem readByte_eq_byteOf_readWindow (s : State) (off n k : Nat) (hk : k < n) (h4 : k < 4)
    (hm : inData (off + k) = true ∨ inControl (off + k) = true) : s.readByte (off + k) = some (byteOf (s.readWindow off n) k) := by
  obtain ⟨b, hb⟩ := readByte_mapped s (off + k) hm
  rw [State.readWindow, byteOf_wordOfBytes _ k h4]
  simp [hk, hb]

theorem readWindow_lt (s : State) (off n : Nat) : (s.readWindow off n).toNat < 2 ^ (8 * n) := by
  simpa [State.readWindow] using wordOfBytes_lt ((List.range n).map fun k => (s.readByte (off + k)).getD 0)

theorem step_of_admitted_read (s : State) (off n : Nat) (rest : List HostEvent) (h : s.port.pending = .read off n :: rest)
    (ha : admitted false off n = true) : step s = .next ⟨s.regs, s.ctl, ⟨rest, some (.okData (s.readWindow off n))⟩⟩ := by
  calc step s = perform (.read off n) (s.withPending rest) := step_of_cons s _ rest h
    _ = .next (memRead off n (s.withPending rest)) := by rw [perform, if_pos (inWindow_of_admitted _ _ _ ha)]
    _ = .next ((s.withPending rest).respond (.okData (s.readWindow off n))) := by rw [memRead, if_pos ha]; rfl
    _ = .next ⟨s.regs, s.ctl, ⟨rest, some (.okData (s.readWindow off n))⟩⟩ := rfl

/-- Settles O43: the step of an admitted read answers the window's bytes, and all of them are mapped. -/
theorem readReturnsBytesAndChangesNothing : Obligations.ReadReturnsBytesAndChangesNothing := by
  intro s off n rest h ha
  obtain ⟨hsize, -, hmapped, -, -⟩ := (admitted_iff false off n).mp ha
  exact ⟨s.readWindow off n, step_of_admitted_read s off n rest h ha,
    fun k hk => readByte_eq_byteOf_readWindow s off n k hk (by omega) (hmapped k hk), readWindow_lt s off n⟩

/-! ### Repeated transactions (R69) -/

@[simp] theorem readWindow_respond (s : State) (r : Response) (off n : Nat) : (s.respond r).readWindow off n = s.readWindow off n := rfl

@[simp] theorem respond_respond (s : State) (r q : Response) : (s.respond r).respond q = s.respond q := rfl

/-- A read only records its response. -/
theorem memRead_eq_respond (off n : Nat) (s : State) :
    memRead off n s = s.respond (if admitted false off n = true then .okData (s.readWindow off n) else .err) := by
  unfold memRead
  split <;> rfl

theorem memRead_memRead (off n : Nat) (s : State) : memRead off n (memRead off n s) = memRead off n s := by
  simp [memRead_eq_respond]

/-- Past the data region a data write reaches no register. -/
theorem writeWindow_of_ge (r : DataRegs) (off n : Nat) (v : Word) (h : 0x120 ≤ off) : r.writeWindow off n v = r := by
  have hbyte : ∀ k x, r.writeByte (off + k) x = r := fun k x => by
    simp [DataRegs.writeByte, locate_none_of_ge (off + k) (by omega)]
  unfold DataRegs.writeWindow
  induction n with
  | zero => rfl
  | succ n ih => rw [List.range_succ, List.foldl_append, ih]; exact hbyte n _

theorem writeWindow_idem_of_data (r : DataRegs) (off n : Nat) (v : Word) (hd : ∀ k < n, inData (off + k) = true) :
    (r.writeWindow off n v).writeWindow off n v = r.writeWindow off n v := by
  refine DataRegs.ext_bytes fun t k hk => ?_
  rw [slotByte_writeWindow _ off n v t k hd hk, slotByte_writeWindow r off n v t k hd hk]
  split <;> rfl

theorem writeWindow_idem_of_admitted (r : DataRegs) (off n : Nat) (v : Word) (h : admitted true off n = true) :
    (r.writeWindow off n v).writeWindow off n v = r.writeWindow off n v := by
  rcases admitted_data_or_control true off n h with hd | hc
  · exact writeWindow_idem_of_data r off n v hd
  · simp only [writeWindow_of_ge r off n v (by omega)]

theorem clearFlags_clearFlags (c : Control) (v : Word) : (c.clearFlags v).clearFlags v = c.clearFlags v := by
  simp [Control.clearFlags]

theorem executeCommand_of_decode (w : Word) (i : Instr) (s : State) (h : decode w = .ok i) : executeCommand w s = exec i s := by
  rw [executeCommand, h]

/-- A state with the scale by two in M[0]: its square and its fourth power differ. -/
def doublingState : State := State.reset.writeM 0 (scaleMatrix ⟨0x200, 0x200⟩)

/-- MUL M0, M0, M0 performed twice squares the square of M[0]. -/
theorem mul_repeated_changes_regs : ∃ s t u : State, executeCommand 0x06000000 s = .next t ∧ executeCommand 0x06000000 t = .next u
    ∧ t.regs ≠ u.regs := by
  have square (s : State) : executeCommand 0x06000000 s = .next (s.writeM 0 (matmul (s.readM 0) (s.readM 0))) :=
    (executeCommand_of_decode _ (.mul 0 0 0) s (by decide)).trans (exec_mul 0 0 0 s)
  exact ⟨doublingState, _, _, square _, square _, by decide⟩

/-- Settles O47: reads record a response only, writes of bytes and of STATUS absorb their repetition, and MUL does not. -/
theorem repeatedTransactions : Obligations.RepeatedTransactions := by
  refine ⟨fun s off n => ⟨memRead_memRead off n s, ?_, ?_⟩, writeWindow_idem_of_admitted, clearFlags_clearFlags,
    mul_repeated_changes_regs⟩
  · rw [memRead_eq_respond, respond_regs]
  · rw [memRead_eq_respond, respond_ctl]

end Sys2Proof.Machine

/-! What the decoder accepts (30_encoding.md R92, R96, R97): a word is a legal instance of a row exactly when it passes the row's mask,
stated once for every row of the command table, then once for the rows with two operands. -/

namespace Sys2Proof

/-- The row of 30_encoding.md R96 a command belongs to, its operands forgotten. -/
def Instr.op : Instr → Op
  | .ident _ => .ident
  | .rot _ _ => .rot
  | .trn _ _ => .trn
  | .scl _ _ => .scl
  | .pos _ _ => .pos
  | .mul _ _ _ => .mul
  | .trybg _ _ => .trybg
  | .tryobj _ _ => .tryobj
  | .wrpbg _ _ => .wrpbg
  | .wrpobj _ _ => .wrpobj
  | .widbg _ _ => .widbg
  | .widobj _ _ => .widobj
  | .bgsrp _ _ _ _ _ => .bgsrp

@[simp] theorem op_instr (op : Op) (w : Word) : (op.instr w).op = op := by cases op <;> rfl

theorem opcOf_pat : ∀ r ∈ opcodeTable, opcOf r.pat = r.opc := by decide

theorem find_row_of_opcode : ∀ r ∈ opcodeTable, opcodeTable.find? (fun q => q.opc == r.opc) = some r := by decide

theorem row_eq_of_op_eq : ∀ r ∈ opcodeTable, ∀ q ∈ opcodeTable, r.op = q.op → r = q := by decide

/-- A word that passes a row's mask has the row's opcode byte, because the mask holds that byte whole. -/
theorem opcOf_of_mask_match {r : Row} (hr : r ∈ opcodeTable) {w : Word} (h : w &&& r.mask = r.pat) : opcOf w = r.opc := by
  obtain ⟨-, hmask⟩ := rows_match_opcode r hr
  calc opcOf w = opcOf w &&& r.mask.extractLsb' 24 8 := by rw [hmask]; exact BitVec.and_allOnes.symm
    _ = opcOf (w &&& r.mask) := BitVec.extractLsb'_and.symm
    _ = opcOf r.pat := by rw [h]
    _ = r.opc := opcOf_pat r hr

/-- A word that passes a row's mask decodes to the row's command, with the indices that stand in the word (30_encoding.md R97). -/
theorem decode_of_mask_match {r : Row} (hr : r ∈ opcodeTable) {w : Word} (h : w &&& r.mask = r.pat) :
    decode w = .ok (r.op.instr w) := by
  rw [decode, opcOf_of_mask_match hr h, find_row_of_opcode r hr]
  exact if_pos h

/-- A word that decodes to a command of a row passes the row's mask. -/
theorem mask_match_of_decode {r : Row} (hr : r ∈ opcodeTable) {w : Word} {i : Instr} (h : decode w = .ok i) (hi : i.op = r.op) :
    w &&& r.mask = r.pat := by
  obtain ⟨q, hq, -, hmatch, rfl⟩ := decode_ok_cases w i h
  obtain rfl : q = r := row_eq_of_op_eq q hq r hr (by simpa using hi)
  exact hmatch

/-- The row of 30_encoding.md R96 with this name. -/
def Op.row (op : Op) : Row := (opcodeTable.find? (fun r => r.op = op)).get (by cases op <;> rfl)

theorem row_mem (op : Op) : op.row ∈ opcodeTable := List.get_find?_mem _

theorem row_op (op : Op) : op.row.op = op := by cases op <;> rfl

/-- The mask test of 30_encoding.md R92 for the row `op`: `legal` says that the word decodes to one of the row's commands, with some
operands. -/
theorem legal_iff_mask_match (op : Op) (w : Word) {legal : Prop} (hop : legal → ∃ i, decode w = .ok i ∧ i.op = op)
    (hlegal : decode w = .ok (op.instr w) → legal) : legal ↔ w &&& op.row.mask = op.row.pat where
  mp h := by
    obtain ⟨i, hi, hrow⟩ := hop h
    exact mask_match_of_decode (row_mem op) hi (hrow.trans (row_op op).symm)
  mpr h := hlegal (by simpa only [row_op] using decode_of_mask_match (row_mem op) h)

/-- The mask test for a row whose commands `mk d a` have a destination and one source. -/
theorem legal_two_operands_iff_mask_match (op : Op) (w : Word) {mk : Idx → Idx → Instr} (hop : ∀ d a, (mk d a).op = op)
    (hmk : op.instr w = mk (indexAt w 20) (indexAt w 16)) :
    (∃ d a, decode w = .ok (mk d a)) ↔ w &&& op.row.mask = op.row.pat :=
  legal_iff_mask_match op w (fun ⟨d, a, h⟩ => ⟨mk d a, h, hop d a⟩) fun h => ⟨_, _, h.trans (congrArg _ hmk)⟩

/-- Settles O36: the mask test at each of the thirteen rows, ten of which have two operands. -/
theorem legalInstancesAreMaskMatches : Obligations.LegalInstancesAreMaskMatches := fun w =>
  ⟨legal_iff_mask_match .ident w (fun ⟨_, h⟩ => ⟨_, h, rfl⟩) fun h => ⟨_, h⟩,
    legal_two_operands_iff_mask_match .rot w (fun _ _ => rfl) rfl,
    legal_two_operands_iff_mask_match .trn w (fun _ _ => rfl) rfl,
    legal_two_operands_iff_mask_match .scl w (fun _ _ => rfl) rfl,
    legal_two_operands_iff_mask_match .pos w (fun _ _ => rfl) rfl,
    legal_iff_mask_match .mul w (fun ⟨_, _, _, h⟩ => ⟨_, h, rfl⟩) fun h => ⟨_, _, _, h⟩,
    legal_two_operands_iff_mask_match .trybg w (fun _ _ => rfl) rfl,
    legal_two_operands_iff_mask_match .tryobj w (fun _ _ => rfl) rfl,
    legal_two_operands_iff_mask_match .wrpbg w (fun _ _ => rfl) rfl,
    legal_two_operands_iff_mask_match .wrpobj w (fun _ _ => rfl) rfl,
    legal_two_operands_iff_mask_match .widbg w (fun _ _ => rfl) rfl,
    legal_two_operands_iff_mask_match .widobj w (fun _ _ => rfl) rfl,
    legal_iff_mask_match .bgsrp w (fun ⟨_, _, _, _, _, h⟩ => ⟨_, h, rfl⟩) fun h => ⟨_, _, _, _, _, h⟩⟩

/-- Settles O35: the decoder evaluated at each of the words (30_encoding.md R103). -/
theorem workedEncodingsDecode : Obligations.WorkedEncodingsDecode := by
  unfold Obligations.WorkedEncodingsDecode
  decide

end Sys2Proof

/-! The scalar operations on wide values (40_fixed_point.md R122 to R125) and the laws of R131. -/

namespace Sys2Proof.Machine

/-! ### The product (R122, R131) -/

/-- Bits 39:8 of an integer held in 64 bits are its quotient by 256, rounded toward minus infinity, modulo 2^32. -/
theorem extractLsb'_ofInt_eq_ofInt_ediv (P : Int) : (BitVec.ofInt 64 P).extractLsb' 8 32 = BitVec.ofInt 32 (P / 256) := by
  apply BitVec.eq_of_toNat_eq
  rw [BitVec.extractLsb'_toNat, BitVec.toNat_ofInt, BitVec.toNat_ofInt, Nat.shiftRight_eq_div_pow]
  omega

/-- The two bounds determine the quotient that `fxmul` narrows. -/
theorem fxmul_eq_ofInt_of_floor (p q : Wide) (k : Int) (hlo : 256 * k ≤ p.toInt * q.toInt) (hhi : p.toInt * q.toInt < 256 * (k + 1)) :
    fxmul p q = BitVec.ofInt 32 k := by
  have hk : p.toInt * q.toInt / 256 = k := by omega
  rw [fxmul, hk]

/-- Settles O1: the bits of the exact product are its floored quotient, and the bounds determine that quotient. -/
theorem fxmulIsFlooredProductOver256 : Obligations.FxmulIsFlooredProductOver256 :=
  ⟨fun p q => (extractLsb'_ofInt_eq_ofInt_ediv (p.toInt * q.toInt)).symm, fxmul_eq_ofInt_of_floor⟩

/-- The product with a whole number `k` is exact: no bit is lost below the binary point. -/
theorem fxmul_whole (p q : Wide) (k : Int) (hq : q.toInt = k * 256) : fxmul p q = BitVec.ofInt 32 (p.toInt * k) := by
  rw [fxmul, hq, ← Int.mul_assoc, Int.mul_ediv_cancel _ (by decide)]

theorem fxmul_comm (p q : Wide) : fxmul p q = fxmul q p := by
  rw [fxmul, fxmul, Int.mul_comm]

@[simp] theorem fxmul_one (p : Wide) : fxmul p 0x00000100#32 = p := by
  rw [fxmul_whole p _ 1 (by decide), Int.mul_one, BitVec.ofInt_toInt]

@[simp] theorem fxmul_zero (p : Wide) : fxmul p 0x00000000#32 = 0#32 := by
  rw [fxmul_whole p _ 0 (by decide), Int.mul_zero]
  rfl

@[simp] theorem fxmul_neg_one (p : Wide) : fxmul p 0xFFFFFF00#32 = fxneg p := by
  rw [fxmul_whole p _ (-1) (by decide), Int.mul_neg_one, fxneg]

/-- Half of the least positive value is cut to zero, but half of twice that value is not. -/
theorem fxmul_not_distributes_over_fxadd : ∃ p q r : Wide, fxmul p (fxadd q r) ≠ fxadd (fxmul p q) (fxmul p r) :=
  ⟨0x00000080, 0x00000001, 0x00000001, by decide⟩

/-- Settles O3: products with whole numbers are exact, and the values of R131 are evaluated. -/
theorem fxmulAlgebraicLaws : Obligations.FxmulAlgebraicLaws :=
  ⟨fxmul_comm, fun p => ⟨fxmul_one p, fxmul_zero p, fxmul_neg_one p⟩, by decide, by decide, fxmul_not_distributes_over_fxadd,
    by decide⟩

/-! ### The range test and the cut to 16 bits (R125) -/

theorem fits8_iff_toInt (v : Wide) : fits8 v = true ↔ -32768 < v.toInt ∧ v.toInt < 32768 := by
  simp [fits8]

/-- The raw patterns that fit: those below 0x8000, and those above 0xFFFF8000, which stand for negative values. -/
theorem fits8_iff_ranges (v : Wide) : fits8 v = true ↔ v ≤ 0x00007FFF ∨ 0xFFFF8001 ≤ v := by
  rw [fits8_iff_toInt, BitVec.toInt_eq_toNat_cond, BitVec.le_def, BitVec.le_def]
  have hv := v.isLt
  change _ ↔ v.toNat ≤ 0x00007FFF ∨ 0xFFFF8001 ≤ v.toNat
  split <;> omega

/-- A value that fits keeps its signed integer when it is cut to 16 bits. -/
theorem toInt_extractLsb'_of_fits8 (v : Wide) (h : fits8 v = true) : (v.extractLsb' 0 16).toInt = v.toInt := by
  obtain ⟨hlo, hhi⟩ := (fits8_iff_toInt v).mp h
  have hcut : (v.extractLsb' 0 16).toInt = v.toInt.bmod (2 ^ 16) := by
    rw [BitVec.toInt_extractLsb', BitVec.toInt_eq_toNat_bmod, Nat.shiftRight_zero, Int.bmod_bmod_of_dvd (by decide)]
  rw [hcut]
  exact Int.bmod_eq_of_le (by omega) (by omega)

/-- A value that fits is the sign extension of its low 16 bits. -/
theorem signExtend_extractLsb'_of_fits8 (v : Wide) (h : fits8 v = true) : (v.extractLsb' 0 16).signExtend 32 = v := by
  apply BitVec.eq_of_toInt_eq
  rw [BitVec.toInt_signExtend_of_le (by decide), toInt_extractLsb'_of_fits8 v h]

/-- Settles O4: the bound on the signed integer, its two ranges of patterns, and the cut that keeps the integer. -/
theorem fits8AcceptsMagnitudeBelow128 : Obligations.Fits8AcceptsMagnitudeBelow128 :=
  ⟨fits8_iff_toInt, fits8_iff_ranges, signExtend_extractLsb'_of_fits8⟩

/-! ### Sums and negation (R123, R124) -/

@[simp] theorem fxsub_eq_sub (p q : Wide) : fxsub p q = p - q := by
  rw [fxsub, fxadd_eq_add, fxneg_eq_neg, BitVec.sub_eq_add_neg]

theorem toNat_fxadd (p q : Wide) : (fxadd p q).toNat = (p.toNat + q.toNat) % 2 ^ 32 := by
  rw [fxadd_eq_add, BitVec.toNat_add]

theorem fxadd_comm (p q : Wide) : fxadd p q = fxadd q p := by
  simp only [fxadd_eq_add, BitVec.add_comm]

theorem fxadd_assoc (p q r : Wide) : fxadd (fxadd p q) r = fxadd p (fxadd q r) := by
  simp only [fxadd_eq_add, BitVec.add_assoc]

theorem fxadd_fxsub_cancel (p q : Wide) : fxadd (fxsub p q) q = p := by
  rw [fxadd_eq_add, fxsub_eq_sub, BitVec.sub_add_cancel]

theorem fxadd_fxneg_self (p : Wide) : fxadd p (fxneg p) = 0 := by
  rw [fxadd_eq_add, fxneg_eq_neg]
  exact BitVec.add_right_neg p

theorem fxneg_fxneg (p : Wide) : fxneg (fxneg p) = p := by
  rw [fxneg_eq_neg, fxneg_eq_neg, BitVec.neg_neg]

/-- Settles O2: the operations are the bit vectors' own sum, difference and negation, whose laws hold modulo 2^32. -/
theorem fxaddFxnegWrapModulo : Obligations.FxaddFxnegWrapModulo :=
  ⟨toNat_fxadd, fxadd_comm, fxadd_assoc, fun p q => ⟨rfl, fxadd_fxsub_cancel p q⟩,
    fun p => ⟨fxadd_fxneg_self p, fxneg_fxneg p⟩, by decide, by decide⟩

end Sys2Proof.Machine

/-! The working-matrix commands (41_working_matrix.md R141 to R147) and the laws of the product (R148, R151). -/

namespace Sys2Proof.Machine

/-! ### The product with a matrix whose linear part is the identity (R148, R151) -/

theorem one_eq : one = 0x00000100#32 := rfl

@[simp] theorem one_fxmul (p : Wide) : fxmul 0x00000100#32 p = p := by rw [fxmul_comm, fxmul_one]

@[simp] theorem zero_fxmul (p : Wide) : fxmul 0x00000000#32 p = 0#32 := by rw [fxmul_comm, fxmul_zero]

/-- On the left, an identity linear part only adds its translation. -/
theorem matmul_identityLinear_left (x y : Wide) (W : WorkingMatrix) :
    matmul ⟨one, 0, 0, one, x, y⟩ W = { W with x := fxadd W.x x, y := fxadd W.y y } := by
  simp [matmul, one_eq]

/-- On the right, an identity linear part only moves the translation, by its own one sent through `W`'s linear part. -/
theorem matmul_identityLinear_right (W : WorkingMatrix) (x y : Wide) :
    matmul W ⟨one, 0, 0, one, x, y⟩ =
      { W with x := fxadd (fxadd (fxmul W.a x) (fxmul W.b y)) W.x, y := fxadd (fxadd (fxmul W.c x) (fxmul W.d y)) W.y } := by
  simp [matmul, one_eq]

theorem matmul_identityMatrix (W : WorkingMatrix) : matmul W identityMatrix = W := by
  rw [identityMatrix, matmul_identityLinear_right]
  simp

theorem identityMatrix_matmul (W : WorkingMatrix) : matmul identityMatrix W = W := by
  rw [identityMatrix, matmul_identityLinear_left]
  simp

/-- Settles O13: an identity linear part keeps the other factor's, and a zero translation keeps its translation. -/
theorem identityIsNeutralForMatmul : Obligations.IdentityIsNeutralForMatmul := fun W =>
  ⟨matmul_identityMatrix W, identityMatrix_matmul W⟩

theorem translationMatrix_matmul (v : Vec2) (W : WorkingMatrix) :
    matmul (translationMatrix v) W = { W with x := fxadd W.x (fxneg v.x), y := fxadd W.y (fxneg v.y) } :=
  matmul_identityLinear_left _ _ W

theorem positionOf_translationMatrix_matmul (v : Vec2) (W : WorkingMatrix) :
    positionOf (matmul (translationMatrix v) W) = ⟨fxneg (fxadd W.x (fxneg v.x)), fxneg (fxadd W.y (fxneg v.y))⟩ := by
  rw [translationMatrix_matmul, positionOf]

/-- With no translation in `W`, the two negations cancel. -/
theorem positionOf_translationMatrix_matmul_of_zero (v : Vec2) (W : WorkingMatrix) (hx : W.x = 0) (hy : W.y = 0) :
    positionOf (matmul (translationMatrix v) W) = v := by
  simp only [positionOf_translationMatrix_matmul, hx, hy, fxadd_eq_add, zero_add, fxneg_fxneg]

/-- Settles O15: the position of translation times `W`, and the x field in the other order. -/
theorem positionLawsOfMatmul : Obligations.PositionLawsOfMatmul := fun v W =>
  ⟨positionOf_translationMatrix_matmul v W, positionOf_translationMatrix_matmul_of_zero v W,
    congrArg WorkingMatrix.x (matmul_identityLinear_right W (fxneg v.x) (fxneg v.y))⟩

/-! ### The six commands (R141 to R147) -/

theorem opcOf_assemble (opc : BitVec 8) (d a b c e : Idx) : opcOf (assemble opc d a b c e) = opc :=
  congrArg Fields.opc (fields_assemble opc d a b c e)

theorem onlyWrites_writeM (s : State) (d : Idx) (W : WorkingMatrix) : OnlyWrites (.m d) s (s.writeM d W) := by
  refine ⟨⟨fun i hi => ?_, fun _ _ => rfl, fun _ _ => rfl, fun _ _ => rfl⟩, rfl, rfl⟩
  have hne : i ≠ d := fun h => hi (congrArg Reg.m h.symm)
  exact Bank.get_set_ne s.regs.m d i W hne

theorem onlyWrites_writeV (s : State) (d : Idx) (v : Vec2) : OnlyWrites (.v d) s (s.writeV d v) := by
  refine ⟨⟨fun _ _ => rfl, fun i hi => ?_, fun _ _ => rfl, fun _ _ => rfl⟩, rfl, rfl⟩
  have hne : i ≠ d := fun h => hi (congrArg Reg.v h.symm)
  exact Bank.get_set_ne s.regs.v d i v hne

/-- A command whose outcome is a write of `W` to `M[d]` completes, leaves `W` there and changes nothing else. -/
theorem exec_only_writes_m {i : Instr} {s : State} {d : Idx} {W : WorkingMatrix} (h : exec i s = .next (s.writeM d W)) :
    ∃ t, exec i s = .next t ∧ t.readM d = W ∧ OnlyWrites (.m d) s t :=
  ⟨_, h, readM_writeM_self s d W, onlyWrites_writeM s d W⟩

/-- Settles O7: IDENT is a write of the identity to `M[d]`. -/
theorem identWritesIdentity : Obligations.IdentWritesIdentity := fun s d =>
  ⟨opcOf_assemble 0x01 d 0 0 0 0, exec_only_writes_m (exec_ident d s)⟩

/-- Settles O8: the table index is the angle's low byte. -/
theorem rotWritesRotation : Obligations.RotWritesRotation := fun s d a =>
  ⟨opcOf_assemble 0x02 d a 0 0 0, exec_only_writes_m (exec_rot d a s)⟩

/-- Settles O9: the translation written is the position with both lanes negated. -/
theorem trnWritesNegatedPosition : Obligations.TrnWritesNegatedPosition := fun s d a =>
  ⟨opcOf_assemble 0x03 d a 0 0 0, exec_only_writes_m (exec_trn d a s)⟩

/-- Settles O10: both lanes are written as they are, with no test. -/
theorem sclStoresScaleAsGiven : Obligations.SclStoresScaleAsGiven := fun s d a =>
  ⟨opcOf_assemble 0x04 d a 0 0 0, exec_only_writes_m (exec_scl d a s)⟩

/-- Settles O11: the destination is in the other file, so that `M[a]` is kept whatever `d` is. -/
theorem posReadsNegatedTranslation : Obligations.PosReadsNegatedTranslation := fun s d a =>
  ⟨opcOf_assemble 0x05 d a 0 0 0, _, exec_pos d a s, readV_writeV_self s d _, readM_writeV s d a _, onlyWrites_writeV s d _⟩

/-- Settles O12: the product is over the state before the write, so that equal indices are no special case. -/
theorem mulWritesProductOfOldSources : Obligations.MulWritesProductOfOldSources := fun s d a b =>
  ⟨opcOf_assemble 0x06 d a b 0 0, exec_only_writes_m (exec_mul d a b s)⟩

end Sys2Proof.Machine

/-! The conversions between working matrices and the narrow formats (42_narrow_widen.md R160 to R171). -/

namespace Sys2Proof.Machine

/-! ### One coefficient (R161 to R163) -/

/-- Of the sign-extended values, only -128.0 has a magnitude that does not fit. -/
theorem fits8_sext32_iff (n : Narrow) : fits8 (sext32 n) = true ↔ n ≠ 0x8000 := by
  have hlo : -32768 ≤ n.toInt := BitVec.le_toInt n
  have hhi : n.toInt < 32768 := BitVec.toInt_lt
  have hmin : n = 0x8000 ↔ n.toInt = -32768 := (BitVec.toInt_inj (y := 0x8000)).symm
  rw [fits8_iff_toInt, sext32_eq_signExtend, BitVec.toInt_signExtend_of_le (by decide), Ne, hmin]
  omega

/-- Widening a value and cutting it again loses nothing, whatever the value. -/
theorem narrow16_sext32 (n : Narrow) : narrow16 (sext32 n) = n := by
  apply BitVec.eq_of_getLsbD_eq
  intro j hj
  rw [narrow16, sext32_eq_signExtend, BitVec.getLsbD_extractLsb', Nat.zero_add, BitVec.getLsbD_signExtend]
  simp [hj, show j < 32 by omega]

theorem sext32_narrow16_of_fits8 (v : Wide) (h : fits8 v = true) : sext32 (narrow16 v) = v :=
  signExtend_extractLsb'_of_fits8 v h

/-! ### A whole matrix (R160, R170) -/

theorem narrowBg_widenBg (n : BgMatrix) : narrowBg (widenBg n) = n := by
  simp only [narrowBg, widenBg, narrow16_sext32]

theorem widenBg_narrowBg (w : WorkingMatrix) (h : firstUnfit w = none) : widenBg (narrowBg w) = w := by
  obtain ⟨ha, hb, hc, hd⟩ := (firstUnfit_eq_none w).mp h
  simp only [widenBg, narrowBg, sext32_narrow16_of_fits8, ha, hb, hc, hd]

theorem widenObj_narrowObj (w : WorkingMatrix) (h : firstUnfit w = none) : widenObj (narrowObj w) = { w with x := 0, y := 0 } := by
  obtain ⟨ha, hb, hc, hd⟩ := (firstUnfit_eq_none w).mp h
  simp only [widenObj, narrowObj, sext32_narrow16_of_fits8, ha, hb, hc, hd]

/-- The first failing coefficient, by its number in the order of the tests (R164, R166). -/
theorem firstUnfit_eq_some {w : WorkingMatrix} {info : BitVec 4}
    (h : info = 0 ∧ fits8 w.a = false
      ∨ info = 1 ∧ fits8 w.a = true ∧ fits8 w.b = false
      ∨ info = 2 ∧ fits8 w.a = true ∧ fits8 w.b = true ∧ fits8 w.c = false
      ∨ info = 3 ∧ fits8 w.a = true ∧ fits8 w.b = true ∧ fits8 w.c = true ∧ fits8 w.d = false) :
    firstUnfit w = some info := by
  rcases h with ⟨rfl, ha⟩ | ⟨rfl, ha, hb⟩ | ⟨rfl, ha, hb, hc⟩ | ⟨rfl, ha, hb, hc, hd⟩
  · simp [firstUnfit, ha]
  · simp [firstUnfit, ha, hb]
  · simp [firstUnfit, ha, hb, hc]
  · simp [firstUnfit, ha, hb, hc, hd]

/-- Where not all four coefficients fit, one of them is reported. -/
theorem exists_firstUnfit_eq_some {w : WorkingMatrix} (h : (fits8 w.a && fits8 w.b && fits8 w.c && fits8 w.d) = false) :
    ∃ info, firstUnfit w = some info := by
  refine Option.ne_none_iff_exists'.mp fun hnone => ?_
  obtain ⟨ha, hb, hc, hd⟩ := (firstUnfit_eq_none w).mp hnone
  simp [ha, hb, hc, hd] at h

/-- A widened background matrix narrows without Overflow exactly when no coefficient is 0x8000. -/
theorem firstUnfit_widenBg_eq_none (n : BgMatrix) :
    firstUnfit (widenBg n) = none ↔ n.a ≠ 0x8000 ∧ n.b ≠ 0x8000 ∧ n.c ≠ 0x8000 ∧ n.d ≠ 0x8000 := by
  rw [firstUnfit_eq_none]
  simp only [widenBg, fits8_sext32_iff]

theorem exists_firstUnfit_widenBg_eq_some (n : BgMatrix) (h : n.a = 0x8000 ∨ n.b = 0x8000 ∨ n.c = 0x8000 ∨ n.d = 0x8000) :
    ∃ info, firstUnfit (widenBg n) = some info := by
  refine Option.ne_none_iff_exists'.mp fun hnone => ?_
  have hfit := (firstUnfit_widenBg_eq_none n).mp hnone
  tauto

/-! ### How a command ends -/

theorem onlyWrites_writeB (s : State) (d : Idx) (n : BgMatrix) : OnlyWrites (.b d) s (s.writeB d n) := by
  refine ⟨⟨fun _ _ => rfl, fun _ _ => rfl, fun i hi => ?_, fun _ _ => rfl⟩, rfl, rfl⟩
  have hne : i ≠ d := fun h => hi (congrArg Reg.b h.symm)
  exact Bank.get_set_ne s.regs.b d i n hne

theorem onlyWrites_writeO (s : State) (d : Idx) (n : ObjMatrix) : OnlyWrites (.o d) s (s.writeO d n) := by
  refine ⟨⟨fun _ _ => rfl, fun _ _ => rfl, fun _ _ => rfl, fun i hi => ?_⟩, rfl, rfl⟩
  have hne : i ≠ d := fun h => hi (congrArg Reg.o h.symm)
  exact Bank.get_set_ne s.regs.o d i n hne

theorem completesInto_of_onlyWrites {r : Reg} {s t : State} (h : OnlyWrites r s t) : CompletesInto r s t.completeFallible := by
  obtain ⟨hregs, hctl, hport⟩ := h
  exact ⟨hregs, by rw [completeFallible_ctl, hctl], hport⟩

section Fallible
variable {i : Instr} {s done : State} {bad : Option (BitVec 4)} {info : BitVec 4}

/-- A fallible command with no failing value ends in its own result, OVF cleared (10_state.md R33). -/
theorem exec_of_no_failing (h : exec i s = .next (s.endFallible i bad done)) (hbad : bad = none) :
    exec i s = .next done.completeFallible := by
  rw [h, hbad]
  rfl

/-- A fallible command with a failing value raises Overflow with its number (60_exceptions.md R203). -/
theorem exec_of_failing (h : exec i s = .next (s.endFallible i bad done)) (hbad : bad = some info) :
    exec i s = .next (s.raiseOverflow info (encode i)) := by
  rw [h, hbad]
  rfl

end Fallible

theorem overflowRaised_raiseOverflow (s : State) (info : BitVec 4) (w : Word) :
    OverflowRaised info w s (s.raiseOverflow info w) :=
  ⟨rfl, rfl, rfl⟩

theorem execAll_cons_of_next {i : Instr} {is : List Instr} {s t : State} (h : exec i s = .next t) :
    execAll (i :: is) s = execAll is t := by
  rw [execAll, h]

section Narrowing
variable {s : State} {a : Idx} (d : Idx)

theorem exec_trybg_of_fits (h : firstUnfit (s.readM a) = none) :
    exec (.trybg d a) s = .next (s.writeB d (narrowBg (s.readM a))).completeFallible :=
  exec_of_no_failing (exec_trybg d a s) h

theorem exec_tryobj_of_fits (h : firstUnfit (s.readM a) = none) :
    exec (.tryobj d a) s = .next (s.writeO d (narrowObj (s.readM a))).completeFallible :=
  exec_of_no_failing (exec_tryobj d a s) h

theorem exec_trybg_of_unfit {info : BitVec 4} (h : firstUnfit (s.readM a) = some info) :
    exec (.trybg d a) s = .next (s.raiseOverflow info (encode (.trybg d a))) :=
  exec_of_failing (exec_trybg d a s) h

theorem exec_tryobj_of_unfit {info : BitVec 4} (h : firstUnfit (s.readM a) = some info) :
    exec (.tryobj d a) s = .next (s.raiseOverflow info (encode (.tryobj d a))) :=
  exec_of_failing (exec_tryobj d a s) h

end Narrowing

/-! ### The six commands (R164 to R169) -/

/-- Settles O18: no coefficient fails and B[d] is written, or the first that fails is reported. -/
theorem trybgNarrowsOrRaisesOverflow : Obligations.TrybgNarrowsOrRaisesOverflow := by
  refine ⟨fun s d a ha hb hc hd => ⟨opcOf_assemble 0x10 d a 0 0 0, ?_⟩, fun s d a info h => ?_⟩
  · have hfit : firstUnfit (s.readM a) = none := (firstUnfit_eq_none _).mpr ⟨ha, hb, hc, hd⟩
    exact ⟨_, exec_trybg_of_fits d hfit, readB_writeB_self s d _, completesInto_of_onlyWrites (onlyWrites_writeB s d _)⟩
  · exact ⟨_, exec_trybg_of_unfit d (firstUnfit_eq_some h), overflowRaised_raiseOverflow s info _⟩

/-- Settles O19: as for TRYBG, with a destination that has no place for the translation. -/
theorem tryobjNarrowsOrRaisesOverflow : Obligations.TryobjNarrowsOrRaisesOverflow := by
  refine ⟨fun s d a ha hb hc hd => ⟨opcOf_assemble 0x11 d a 0 0 0, ?_⟩, fun s d a info h => ?_⟩
  · have hfit : firstUnfit (s.readM a) = none := (firstUnfit_eq_none _).mpr ⟨ha, hb, hc, hd⟩
    exact ⟨_, exec_tryobj_of_fits d hfit, readO_writeO_self s d _, completesInto_of_onlyWrites (onlyWrites_writeO s d _)⟩
  · exact ⟨_, exec_tryobj_of_unfit d (firstUnfit_eq_some h), overflowRaised_raiseOverflow s info _⟩

/-- Settles O20: WRPBG is a write of the truncated matrix to `B[d]`, with no test. -/
theorem wrpbgTruncatesCoefficients : Obligations.WrpbgTruncatesCoefficients := fun s d a =>
  ⟨opcOf_assemble 0x12 d a 0 0 0, _, exec_wrpbg d a s, readB_writeB_self s d _, onlyWrites_writeB s d _⟩

/-- Settles O21: WRPOBJ is a write of the truncated coefficients to `O[d]`, with no test. -/
theorem wrpobjTruncatesCoefficients : Obligations.WrpobjTruncatesCoefficients := fun s d a =>
  ⟨opcOf_assemble 0x13 d a 0 0 0, _, exec_wrpobj d a s, readO_writeO_self s d _, onlyWrites_writeO s d _⟩

/-- Settles O22: WIDBG is a write of the widened matrix to `M[d]`. -/
theorem widbgSignExtendsCoefficients : Obligations.WidbgSignExtendsCoefficients := fun s d a =>
  ⟨opcOf_assemble 0x14 d a 0 0 0, exec_only_writes_m (exec_widbg d a s)⟩

/-- Settles O23: WIDOBJ is a write of the widened coefficients to `M[d]`, over a translation of zero. -/
theorem widobjSignExtendsCoefficients : Obligations.WidobjSignExtendsCoefficients := fun s d a =>
  ⟨opcOf_assemble 0x15 d a 0 0 0, exec_only_writes_m (exec_widobj d a s)⟩

/-! ### Round trips and the boundary (R170, R171) -/

/-- TRYBG then WIDBG gives back a matrix whose coefficients fit. -/
theorem trybg_widbg_round_trip {s : State} {a : Idx} (d k : Idx) (hfit : firstUnfit (s.readM a) = none) :
    ∃ t u, exec (.trybg k a) s = .next t ∧ t.ctl.ovf = false ∧ exec (.widbg d k) t = .next u ∧ u.readM d = s.readM a := by
  refine ⟨_, _, exec_trybg_of_fits k hfit, rfl, exec_widbg d k _, ?_⟩
  rw [readM_writeM_self, readB_completeFallible, readB_writeB_self, widenBg_narrowBg _ hfit]

/-- TRYOBJ then WIDOBJ gives back the coefficients that fit, over a translation of zero. -/
theorem tryobj_widobj_round_trip {s : State} {a : Idx} (d k : Idx) (hfit : firstUnfit (s.readM a) = none) :
    ∃ t u, exec (.tryobj k a) s = .next t ∧ t.ctl.ovf = false ∧ exec (.widobj d k) t = .next u
      ∧ u.readM d = { s.readM a with x := 0, y := 0 } := by
  refine ⟨_, _, exec_tryobj_of_fits k hfit, rfl, exec_widobj d k _, ?_⟩
  rw [readM_writeM_self, readO_completeFallible, readO_writeO_self, widenObj_narrowObj _ hfit]

/-- WIDBG then TRYBG end as TRYBG does on the widened matrix, which would be cut to the register it came from. -/
theorem execAll_widbg_trybg (s : State) (d j k : Idx) :
    execAll [.widbg d k, .trybg j d] s = .next ((s.writeM d (widenBg (s.readB k))).endFallible (.trybg j d)
      (firstUnfit (widenBg (s.readB k))) ((s.writeM d (widenBg (s.readB k))).writeB j (s.readB k))) := by
  rw [execAll_cons_of_next (exec_widbg d k s), execAll_cons_of_next (exec_trybg j d _), readM_writeM_self, narrowBg_widenBg]
  rfl

/-- Settles O24: a coefficient that fits survives the cut, and of the widened ones 0x8000 alone does not fit. -/
theorem narrowWidenRoundTrips : Obligations.NarrowWidenRoundTrips := by
  refine ⟨fun s d a k ha hb hc hd => ?_, fun s d j k => ⟨_, execAll_widbg_trybg s d j k, fun h => ?_, fun h => ?_⟩⟩
  · have hfit : firstUnfit (s.readM a) = none := (firstUnfit_eq_none _).mpr ⟨ha, hb, hc, hd⟩
    exact ⟨trybg_widbg_round_trip d k hfit, tryobj_widobj_round_trip d k hfit⟩
  · rw [(firstUnfit_widenBg_eq_none _).mpr h]
    exact ⟨readB_writeB_self _ j _, rfl⟩
  · obtain ⟨info, hinfo⟩ := exists_firstUnfit_widenBg_eq_some _ h
    rw [hinfo]
    exact ⟨rfl, rfl, rfl⟩

/-- Settles O25: an unfit coefficient ends the fallible forms in Overflow and is not looked at by the wrapping ones. -/
theorem overflowBoundaryOfNarrowing : Obligations.OverflowBoundaryOfNarrowing := by
  refine ⟨fun s d a h => ?_, by decide⟩
  obtain ⟨info, hinfo⟩ := exists_firstUnfit_eq_some h
  have hB : (s.writeB d (narrowBg (s.readM a))).readB d = narrowBg (s.readM a) := readB_writeB_self s d _
  have hO : (s.writeO d (narrowObj (s.readM a))).readO d = narrowObj (s.readM a) := readO_writeO_self s d _
  refine ⟨⟨_, exec_trybg_of_unfit d hinfo, rfl, rfl, rfl, rfl⟩, ⟨_, exec_tryobj_of_unfit d hinfo, rfl, rfl, rfl, rfl⟩,
    ⟨_, exec_wrpbg d a s, rfl, ?_⟩, ⟨_, exec_wrpobj d a s, rfl, ?_⟩⟩
  · rw [hB]
    exact ⟨rfl, rfl, rfl, rfl⟩
  · rw [hO]
    exact ⟨rfl, rfl, rfl, rfl⟩

end Sys2Proof.Machine

/-! The composed command BGSRP (43_compose.md R180 to R188). -/

namespace Sys2Proof.Machine

/-! ### The composite, factor by factor (R181, R182) -/

/-- A translation by the negated origin holds the origin, since `from_translation` negates it again. -/
theorem translationMatrix_fxneg (o : Vec2) : translationMatrix ⟨fxneg o.x, fxneg o.y⟩ = ⟨one, 0, 0, one, o.x, o.y⟩ := by
  simp only [translationMatrix, fxneg_fxneg]

/-- Settles O26: the two negations cancel on every bit pattern. -/
theorem translationByNegatedOriginCarriesOrigin : Obligations.TranslationByNegatedOriginCarriesOrigin :=
  translationMatrix_fxneg

/-- `T1 * S`: the scale, over the origin. -/
theorem originMatrix_matmul_scaleMatrix (o s : Vec2) :
    matmul ⟨one, 0, 0, one, o.x, o.y⟩ (scaleMatrix s) = ⟨s.x, 0, 0, s.y, o.x, o.y⟩ := by
  rw [matmul_identityLinear_left]
  simp [scaleMatrix]

/-- A diagonal linear part scales the rows of a rotation, which has no translation to add. -/
theorem diagonal_matmul_rotationMatrix (sx sy x y : Wide) (k : BitVec 8) :
    matmul ⟨sx, 0, 0, sy, x, y⟩ (rotationMatrix k) =
      ⟨fxmul sx (cosT k), fxmul sx (fxneg (sinT k)), fxmul sy (sinT k), fxmul sy (cosT k), x, y⟩ := by
  simp [matmul, rotationMatrix]

/-- Settles O27: the factors are multiplied in from the left, and `T2` only moves the translation. -/
theorem compositeClosedForm : Obligations.CompositeClosedForm := fun o p s k => by
  rw [composite, originMatrix_matmul_scaleMatrix, diagonal_matmul_rotationMatrix]
  exact matmul_identityLinear_right _ (fxneg p.x) (fxneg p.y)

/-! ### The scale test (R184) -/

/-- The first failing scale lane, by its number: lane x is tested before lane y. -/
theorem firstUnfitScale_eq_some {p : Vec2} {info : BitVec 4}
    (h : info = 4 ∧ fits8 p.x = false ∨ info = 5 ∧ fits8 p.x = true ∧ fits8 p.y = false) : firstUnfitScale p = some info := by
  rcases h with ⟨rfl, hx⟩ | ⟨rfl, hx, hy⟩
  · simp [firstUnfitScale, hx]
  · simp [firstUnfitScale, hx, hy]

section Bgsrp
variable {s : State} {c : Idx} (d a b e : Idx)

theorem exec_bgsrp_of_unfit_scale {info : BitVec 4} (h : firstUnfitScale (s.readV c) = some info) :
    exec (.bgsrp d a b c e) s = .next (s.raiseOverflow info (encode (.bgsrp d a b c e))) :=
  exec_of_failing (exec_bgsrp d a b c e s) (by rw [h]; rfl)

/-- With a scale that fits, only the four coefficient tests are left. -/
theorem exec_bgsrp_of_fit_scale (h : firstUnfitScale (s.readV c) = none) {w : WorkingMatrix}
    (hw : composite (s.readV a) (s.readV b) (s.readV c) (angleOf (s.readV e)) = w) :
    exec (.bgsrp d a b c e) s = .next (s.endFallible (.bgsrp d a b c e) (firstUnfit w) (s.writeB d (narrowBg w))) := by
  rw [exec_bgsrp, h, hw]
  rfl

end Bgsrp

/-- Settles O30: the scale test comes before anything is computed, and a lane that passes is its low half, extended. -/
theorem bgsrpRaisesOverflowOnUnfitScale : Obligations.BgsrpRaisesOverflowOnUnfitScale :=
  ⟨fun s d a b _ e info h =>
    ⟨_, exec_bgsrp_of_unfit_scale d a b e (firstUnfitScale_eq_some h), overflowRaised_raiseOverflow s info _⟩,
    fun v h => (signExtend_extractLsb'_of_fits8 v h).symm⟩

/-! ### How a fallible command ends, in terms of its failing value -/

section EndFallible
variable (s : State) (i : Instr) (bad : Option (BitVec 4)) (done : State)

theorem endFallible_ovf : (s.endFallible i bad done).ctl.ovf = bad.isSome := by
  cases bad <;> rfl

theorem endFallible_regs : (s.endFallible i bad done).regs = if bad.isSome then s.regs else done.regs := by
  cases bad <;> rfl

theorem readB_endFallible (j : Idx) :
    (s.endFallible i bad done).readB j = if bad.isSome then s.readB j else done.readB j := by
  cases bad <;> rfl

end EndFallible

/-! ### The command sequence (R188) -/

/-- A sequence whose first part runs to `t` goes on from `t`. -/
theorem execAll_append_of_next {is : List Instr} (js : List Instr) {s t : State} (h : execAll is s = .next t) :
    execAll (is ++ js) s = execAll js t := by
  induction is generalizing s with
  | nil =>
    cases h
    rfl
  | cons i is ih =>
    obtain ⟨u, hu⟩ := exec_answers_next i s
    rw [execAll_cons_of_next hu] at h
    rw [List.cons_append, execAll_cons_of_next hu, ih h]

/-- The first seven commands of R188's sequence: they build the composite in `M[0]`, the negated origin being in `V[v]`. -/
def composingCommands (v b c e : Idx) : List Instr :=
  [.trn 0 v, .scl 1 c, .rot 2 e, .trn 3 b, .mul 0 0 1, .mul 0 0 2, .mul 0 0 3]

/-- The seven commands leave the product of their four factors in `M[0]`, and the B file as it was. -/
theorem execAll_composingCommands (s : State) (v b c e : Idx) :
    ∃ t, execAll (composingCommands v b c e) s = .next t
      ∧ t.readM 0 = matmul (matmul (matmul (translationMatrix (s.readV v)) (scaleMatrix (s.readV c)))
          (rotationMatrix (angleOf (s.readV e)))) (translationMatrix (s.readV b))
      ∧ t.regs.b = s.regs.b := by
  simp only [composingCommands, execAll, exec_trn, exec_scl, exec_rot, exec_mul]
  refine ⟨_, rfl, ?_, ?_⟩
  · simp
  · simp only [writeM_regs_b]

/-- With the negated origin in a scratch register that no later command reads, the product is the composite. -/
theorem execAll_composingCommands_of_negated_origin (s : State) (o : Vec2) {v b c e : Idx} (hb : v ≠ b) (hc : v ≠ c) (he : v ≠ e) :
    ∃ t, execAll (composingCommands v b c e) (s.writeV v ⟨fxneg o.x, fxneg o.y⟩) = .next t
      ∧ t.readM 0 = composite o (s.readV b) (s.readV c) (angleOf (s.readV e)) ∧ ∀ j, t.readB j = s.readB j := by
  obtain ⟨t, hrun, hm, hregs⟩ := execAll_composingCommands (s.writeV v ⟨fxneg o.x, fxneg o.y⟩) v b c e
  refine ⟨t, hrun, ?_, fun j => congrArg (Bank.get · j) hregs⟩
  rw [hm, readV_writeV_self, readV_writeV_ne _ _ _ _ hb.symm, readV_writeV_ne _ _ _ _ hc.symm, readV_writeV_ne _ _ _ _ he.symm,
    translationMatrix_fxneg, composite]

/-- Settles O31: TRYBG and BGSRP end on the same matrix with the same tests, so that both complete or both overflow. -/
theorem bgsrpEqualsItsCommandSequence : Obligations.BgsrpEqualsItsCommandSequence := by
  intro s d a b c e v hb hc he hx hy
  obtain ⟨t, hrun, hm, hB⟩ := execAll_composingCommands_of_negated_origin s (s.readV a) hb hc he
  have htry := execAll_append_of_next [.trybg d 0] hrun
  rw [execAll_cons_of_next (exec_trybg d 0 t), hm] at htry
  have hbgsrp := exec_bgsrp_of_fit_scale d a b e ((firstUnfitScale_eq_none _).mpr ⟨hx, hy⟩) rfl
  refine ⟨_, _, htry, hbgsrp, ?_, ?_, ?_, ?_⟩
  · rw [readB_endFallible, readB_endFallible, hB, readB_writeB_self, readB_writeB_self]
  · rw [endFallible_ovf, endFallible_ovf]
  · rw [endFallible_regs, apply_ite DataRegs.m, writeB_regs_m, ite_self]
  · rw [endFallible_regs, apply_ite DataRegs.v, writeB_regs_v, ite_self]

end Sys2Proof.Machine

/-! The exceptions that need no command's meaning (60_exceptions.md): AccessFault, which is a bus answer (R205), and IllegalCommand,
which is raised at decode (R204). -/

namespace Sys2Proof.Machine

/-! ### A step that takes a transaction in the window -/

theorem step_of_read (s : State) (off n : Nat) (rest : List HostEvent) (h : s.port.pending = .read off n :: rest)
    (hw : inWindow off n = true) : step s = .next (memRead off n (s.withPending rest)) := by
  rw [step_of_cons s _ rest h, perform, if_pos hw]

theorem step_of_write (s : State) (off n : Nat) (v : Word) (rest : List HostEvent) (h : s.port.pending = .write off n v :: rest)
    (hw : inWindow off n = true) : step s = memWrite off n v (s.withPending rest) := by
  rw [step_of_cons s _ rest h, perform, if_pos hw]

/-! ### Who writes the recorded response (R205) -/

theorem endFallible_port {s done : State} (i : Instr) (bad : Option (BitVec 4)) (h : done.port = s.port) :
    (s.endFallible i bad done).port = s.port := by
  cases bad with
  | none => exact h
  | some _ => rfl

/-- A command has no access to the host's queue or to the bus response. -/
theorem exec_keeps_port {i : Instr} {s t : State} (h : exec i s = .next t) : t.port = s.port := by
  cases i with
  | trybg | tryobj | bgsrp =>
    cases h
    exact endFallible_port _ _ rfl
  | ident | rot | trn | scl | pos | mul | wrpbg | wrpobj | widbg | widobj =>
    cases h
    rfl

theorem executeCommand_of_illegal {w : Word} {e : DecodeError} (s : State) (h : decode w = .error e) :
    executeCommand w s = .next (s.raiseIllegal e w) := by
  rw [executeCommand, h]

/-- A word written to CMD, legal or not, leaves the response that the bus has given. -/
theorem executeCommand_keeps_port (w : Word) (s : State) : ∃ t, executeCommand w s = .next t ∧ t.port = s.port := by
  cases hd : decode w with
  | ok i =>
    obtain ⟨t, ht⟩ := exec_answers_next i s
    exact ⟨t, (executeCommand_of_decode w i s hd).trans ht, exec_keeps_port ht⟩
  | error e => exact ⟨_, executeCommand_of_illegal s hd, rfl⟩

theorem memWrite_of_not_admitted (off n : Nat) (v : Word) (s : State) (h : admitted true off n = false) :
    memWrite off n v s = .next (s.respond .err) := by
  rw [memWrite, h]
  rfl

/-- An admitted write is answered OK, whatever it does (10_state.md R37). -/
theorem memWrite_of_admitted (off n : Nat) (v : Word) (s : State) (h : admitted true off n = true) :
    ∃ t, memWrite off n v s = .next t ∧ t.port.response = some .ok := by
  rcases memWrite_cases off n v s with ⟨ha, -⟩ | ⟨-, -, hm⟩ | ⟨-, -, hm⟩ | ⟨-, -, -, hm⟩
  · exact absurd (ha.symm.trans h) Bool.false_ne_true
  · obtain ⟨t, ht, hport⟩ := executeCommand_keeps_port v (s.respond .ok)
    exact ⟨t, hm.trans ht, congrArg Port.response hport⟩
  · exact ⟨_, hm, rfl⟩
  · exact ⟨_, hm, rfl⟩

/-- Settles O42: a transaction turned away only records ERR, an admitted read records data, and an admitted write OK. -/
theorem rejectedTransactionChangesNothing : Obligations.RejectedTransactionChangesNothing := by
  intro s off n v rest hw
  refine ⟨fun h ha => ?_, fun h ha => ?_, fun h ha => ?_, fun h ha => ?_⟩
  · rw [step_of_read s off n rest h hw, memRead_eq_respond, ha]
    rfl
  · rw [step_of_write s off n v rest h hw, memWrite_of_not_admitted off n v _ ha]
    rfl
  · exact ⟨_, step_of_admitted_read s off n rest h ha, by simp⟩
  · obtain ⟨t, ht, hok⟩ := memWrite_of_admitted off n v (s.withPending rest) ha
    exact ⟨t, (step_of_write s off n v rest h hw).trans ht, by simp [hok]⟩

/-! ### A word written to CMD (R204) -/

/-- A whole write to CMD is admitted, answered OK and executed (10_state.md R37). -/
theorem memWrite_cmd (w : Word) (s : State) : memWrite cmdOffset 4 w s = executeCommand w (s.respond .ok) := by
  have ha : admitted true cmdOffset 4 = true := by decide
  rw [memWrite, if_pos ha, if_pos rfl]

theorem step_of_cmd_write (s : State) (w : Word) (rest : List HostEvent) (h : s.port.pending = .write 0x180 4 w :: rest) :
    step s = executeCommand w ⟨s.regs, s.ctl, ⟨rest, some .ok⟩⟩ :=
  (step_of_write s cmdOffset 4 w rest h (by decide)).trans (memWrite_cmd w _)

/-- Settles O51: the step runs the written word, and an illegal word only raises its exception. -/
theorem illegalWordIsRecorded : Obligations.IllegalWordIsRecorded :=
  ⟨fun s _ _ rest h hd => (step_of_cmd_write s _ rest h).trans (executeCommand_of_illegal _ hd), rfl, rfl⟩

end Sys2Proof.Machine

/-! The decoder against the encoder and against the prose of the rule (30_encoding.md R92, R96 to R98, R101): a row's mask is read field
by field, which makes the mask test the field checks of R98. -/

namespace Sys2Proof

/-! ### The masks of R96, field by field -/

/-- The mask bits of an index field: the two high bits of a field in use, else all four (30_encoding.md R92). -/
def fieldMask (used : Bool) : BitVec 4 := if used then 0xC else 0xF

theorem indexOk_iff_and_fieldMask (used : Bool) (f : BitVec 4) : indexOk used f = true ↔ f &&& fieldMask used = 0 := by
  revert used f
  decide

theorem fields_and (w m : Word) : Fields.ofWord (w &&& m) =
    ⟨(Fields.ofWord w).opc &&& (Fields.ofWord m).opc, (Fields.ofWord w).rd &&& (Fields.ofWord m).rd,
      (Fields.ofWord w).ra &&& (Fields.ofWord m).ra, (Fields.ofWord w).rb &&& (Fields.ofWord m).rb,
      (Fields.ofWord w).rc &&& (Fields.ofWord m).rc, (Fields.ofWord w).re &&& (Fields.ofWord m).re,
      (Fields.ofWord w).zero &&& (Fields.ofWord m).zero⟩ := by
  simp only [Fields.ofWord, opcOf, BitVec.extractLsb'_and]

/-- The format of a row, by its opcode byte. -/
def Row.format (r : Row) : Format := (formatOf r.opc).getD .N

theorem formatOf_row : ∀ r ∈ opcodeTable, formatOf r.opc = some r.format := by decide

/-- A row's mask holds the opcode byte, the ZERO field, and of each index field what its format asks for (30_encoding.md R92). -/
theorem fields_mask : ∀ r ∈ opcodeTable, Fields.ofWord r.mask =
    ⟨0xFF, fieldMask true, fieldMask r.format.usesRA, fieldMask r.format.usesRB, fieldMask r.format.usesRC,
      fieldMask r.format.usesRE, 0xF⟩ := by decide

theorem fields_pat : ∀ r ∈ opcodeTable, Fields.ofWord r.pat = ⟨r.opc, 0, 0, 0, 0, 0, 0⟩ := by decide

/-- The field checks of R98, for a word with an assigned opcode byte. -/
theorem wellFormed_iff {f : Fields} {k : Format} (h : formatOf f.opc = some k) : f.wellFormed = true ↔
    indexOk true f.rd = true ∧ indexOk k.usesRA f.ra = true ∧ indexOk k.usesRB f.rb = true ∧ indexOk k.usesRC f.rc = true
      ∧ indexOk k.usesRE f.re = true ∧ f.zero = 0 := by
  simp [Fields.wellFormed, h, and_assoc]

/-- A word with a row's opcode byte passes the row's mask exactly when the prose accepts its fields (30_encoding.md R98). -/
theorem mask_match_iff_wellFormed {r : Row} (hr : r ∈ opcodeTable) {w : Word} (h : opcOf w = r.opc) :
    w &&& r.mask = r.pat ↔ (Fields.ofWord w).wellFormed = true := by
  have hopc : (Fields.ofWord w).opc = r.opc := h
  have hopcode : r.opc &&& 0xFF = r.opc := BitVec.and_allOnes
  have hzero : (Fields.ofWord w).zero &&& 0xF = (Fields.ofWord w).zero := BitVec.and_allOnes
  calc w &&& r.mask = r.pat
    _ ↔ Fields.ofWord (w &&& r.mask) = Fields.ofWord r.pat := ⟨congrArg _, word_ext_fields _ _⟩
    _ ↔ (Fields.ofWord w).wellFormed = true := by
      rw [wellFormed_iff (by rw [hopc, formatOf_row r hr]), fields_and, fields_mask r hr, fields_pat r hr]
      simp only [Fields.mk.injEq, indexOk_iff_and_fieldMask, hopc, hopcode, hzero, true_and]

/-! ### The three answers of the decoder (R97, R98) -/

theorem decode_of_unknown_opcode {w : Word} (h : opcOf w ∉ opcodeTable.map Row.opc) : decode w = .error .unknownOpcode := by
  have hfind : opcodeTable.find? (fun r => r.opc == opcOf w) = none := by
    rw [List.find?_eq_none]
    intro r hr heq
    exact h (List.mem_map.mpr ⟨r, hr, by simpa using heq⟩)
  rw [decode, hfind]

theorem decode_of_row {r : Row} (hr : r ∈ opcodeTable) {w : Word} (h : opcOf w = r.opc) :
    decode w = if (Fields.ofWord w).wellFormed = true then .ok (r.op.instr w) else .error .badField := by
  rw [decode, h, find_row_of_opcode r hr]
  exact if_congr (mask_match_iff_wellFormed hr h) rfl rfl

theorem opcode_known_of_format : ∀ opc : BitVec 8, formatOf opc ≠ none → opc ∈ opcodeTable.map Row.opc := by decide

theorem wellFormed_of_unknown_opcode {w : Word} (h : opcOf w ∉ opcodeTable.map Row.opc) : (Fields.ofWord w).wellFormed = false := by
  have hfmt : formatOf (Fields.ofWord w).opc = none := by
    by_contra hne
    exact h (opcode_known_of_format _ hne)
  simp [Fields.wellFormed, hfmt]

/-- What the decoder answers to any word, in the terms of R98. -/
theorem decode_cases (w : Word) :
    (opcOf w ∉ opcodeTable.map Row.opc ∧ (Fields.ofWord w).wellFormed = false ∧ decode w = .error .unknownOpcode)
    ∨ (opcOf w ∈ opcodeTable.map Row.opc ∧ (Fields.ofWord w).wellFormed = false ∧ decode w = .error .badField)
    ∨ (opcOf w ∈ opcodeTable.map Row.opc ∧ (Fields.ofWord w).wellFormed = true ∧ ∃ i, decode w = .ok i) := by
  by_cases hk : opcOf w ∈ opcodeTable.map Row.opc
  · obtain ⟨r, hr, hopc⟩ := List.mem_map.mp hk
    have hd := decode_of_row hr hopc.symm
    cases hwf : (Fields.ofWord w).wellFormed with
    | false => exact .inr (.inl ⟨hk, rfl, by simpa [hwf] using hd⟩)
    | true => exact .inr (.inr ⟨hk, rfl, _, by simpa [hwf] using hd⟩)
  · exact .inl ⟨hk, wellFormed_of_unknown_opcode hk, decode_of_unknown_opcode hk⟩

/-- Settles O37: each of the decoder's three answers goes with one answer of the prose. -/
theorem illegalWordsByReason : Obligations.IllegalWordsByReason := by
  intro w
  change (_ ↔ opcOf w ∉ opcodeTable.map Row.opc) ∧ (_ ↔ opcOf w ∈ opcodeTable.map Row.opc ∧ _) ∧ _
  rcases decode_cases w with ⟨hk, hwf, hd⟩ | ⟨hk, hwf, hd⟩ | ⟨hk, hwf, i, hd⟩
  · simp [hk, hwf, hd]
  · simp [hk, hwf, hd]
  · simp [hk, hwf, hd]

/-! ### Decoding an encoded command (R101) -/

theorem nibble_injective : ∀ i j : Idx, nibble i = nibble j → i = j := by decide

/-- The index read from a field that holds an index. -/
theorem indexAt_of_field {w : Word} {lo : Nat} {i : Idx} (h : w.extractLsb' lo 4 = nibble i) : indexAt w lo = i := by
  have bit : ∀ j < 4, w.getLsbD (lo + j) = (nibble i).getLsbD j := fun j hj => by
    rw [← h, BitVec.getLsbD_extractLsb']
    simp [hj]
  have high : ∀ j, 2 ≤ j → (nibble i).getLsbD j = false := fun j hj => by
    rw [nibble_getLsbD, idx_testBit_high i j hj, Bool.and_false]
  refine nibble_injective _ _ ?_
  rw [← h, extract_eq_nibble w lo ((bit 2 (by decide)).trans (high 2 (by decide)))
    ((bit 3 (by decide)).trans (high 3 (by decide)))]

section Assemble
variable (opc : BitVec 8) (d a b c e : Idx)

@[simp] theorem indexAt_assemble_d : indexAt (assemble opc d a b c e) 20 = d :=
  indexAt_of_field (congrArg Fields.rd (fields_assemble opc d a b c e))

@[simp] theorem indexAt_assemble_a : indexAt (assemble opc d a b c e) 16 = a :=
  indexAt_of_field (congrArg Fields.ra (fields_assemble opc d a b c e))

@[simp] theorem indexAt_assemble_b : indexAt (assemble opc d a b c e) 12 = b :=
  indexAt_of_field (congrArg Fields.rb (fields_assemble opc d a b c e))

@[simp] theorem indexAt_assemble_c : indexAt (assemble opc d a b c e) 8 = c :=
  indexAt_of_field (congrArg Fields.rc (fields_assemble opc d a b c e))

@[simp] theorem indexAt_assemble_e : indexAt (assemble opc d a b c e) 4 = e :=
  indexAt_of_field (congrArg Fields.re (fields_assemble opc d a b c e))

end Assemble

open Laws.EncodesWellFormed in
theorem encode_wellFormed (i : Instr) : (Fields.ofWord (encode i)).wellFormed = true := by
  cases i with
  | ident d => exact ident d
  | rot d a => exact rot d a
  | trn d a => exact trn d a
  | scl d a => exact scl d a
  | pos d a => exact pos d a
  | mul d a b => exact mul d a b
  | trybg d a => exact trybg d a
  | tryobj d a => exact tryobj d a
  | wrpbg d a => exact wrpbg d a
  | wrpobj d a => exact wrpobj d a
  | widbg d a => exact widbg d a
  | widobj d a => exact widobj d a
  | bgsrp d a b c e => exact bgsrp d a b c e

/-- A command's word has its row's opcode byte. -/
theorem opcOf_encode (i : Instr) : opcOf (encode i) = i.op.row.opc := by
  cases i <;> exact Machine.opcOf_assemble _ _ _ _ _ _

/-- The operands read from a command's word are the command's. -/
theorem instr_encode (i : Instr) : i.op.instr (encode i) = i := by
  cases i <;> simp [Instr.op, Op.instr, encode]

theorem decode_encode (i : Instr) : decode (encode i) = .ok i := by
  rw [decode_of_row (row_mem i.op) (opcOf_encode i), if_pos (encode_wellFormed i), row_op, instr_encode]

/-! ### Encoding a decoded word (R97, R98) -/

/-- The index an encoded command has in a field: the one in the word where the format uses the field, else zero. -/
def operandAt (used : Bool) (w : Word) (lo : Nat) : Idx := if used then indexAt w lo else 0

/-- A field that passes its check is the field of its operand. -/
theorem extract_eq_nibble_operandAt {used : Bool} {w : Word} {lo : Nat} (h : indexOk used (w.extractLsb' lo 4) = true) :
    w.extractLsb' lo 4 = nibble (operandAt used w lo) := by
  cases used with
  | false => simpa [indexOk, operandAt, nibble] using h
  | true =>
    have high : ∀ f : BitVec 4, indexOk true f = true → f.getLsbD 2 = false ∧ f.getLsbD 3 = false := by decide
    obtain ⟨h2, h3⟩ := high _ h
    exact extract_eq_nibble w lo (by simpa using h2) (by simpa using h3)

/-- The word of a row's command, its operands read from `w`. -/
theorem encode_instr (op : Op) (w : Word) : encode (op.instr w) =
    assemble op.row.opc (indexAt w 20) (operandAt op.row.format.usesRA w 16) (operandAt op.row.format.usesRB w 12)
      (operandAt op.row.format.usesRC w 8) (operandAt op.row.format.usesRE w 4) := by
  cases op <;> rfl

theorem encode_instr_of_wellFormed {op : Op} {w : Word} (hopc : opcOf w = op.row.opc) (h : (Fields.ofWord w).wellFormed = true) :
    encode (op.instr w) = w := by
  have hfmt : formatOf (Fields.ofWord w).opc = some op.row.format := (congrArg formatOf hopc).trans (formatOf_row _ (row_mem op))
  obtain ⟨hd, ha, hb, hc, he, hz⟩ := (wellFormed_iff hfmt).mp h
  refine word_ext_fields _ _ ?_
  rw [encode_instr, fields_assemble, Fields.ofWord, Fields.mk.injEq]
  exact ⟨hopc.symm, (extract_eq_nibble_operandAt hd).symm, (extract_eq_nibble_operandAt ha).symm,
    (extract_eq_nibble_operandAt hb).symm, (extract_eq_nibble_operandAt hc).symm, (extract_eq_nibble_operandAt he).symm, hz.symm⟩

theorem encode_of_decode {w : Word} {i : Instr} (h : decode w = .ok i) : encode i = w := by
  obtain ⟨r, hr, hopc, hmatch, rfl⟩ := decode_ok_cases w i h
  have hrow : r.op.row = r := row_eq_of_op_eq _ (row_mem r.op) r hr (row_op r.op)
  exact encode_instr_of_wellFormed (by rw [hrow, hopc]) ((mask_match_iff_wellFormed hr hopc.symm).mp hmatch)

/-- Settles O38: a command's word passes its row's check, and a word that passes is put together again from its fields. -/
theorem decodeAndEncodeAgree : Obligations.DecodeAndEncodeAgree := fun _ i =>
  ⟨fun h => (encode_of_decode h).symm, fun h => h ▸ decode_encode i⟩

end Sys2Proof

/-! What every command leaves unchanged, register by register and byte by byte, and what it does not read (10_state.md R32, 60_exceptions.md
R201, R203). -/

namespace Sys2Proof.Machine

/-! ### Registers (R32, R201, R203) -/

theorem sameExcept_of_eq (r : Reg) {s t : DataRegs} (h : t = s) : SameExcept r s t := by
  subst h
  exact ⟨fun _ _ => rfl, fun _ _ => rfl, fun _ _ => rfl, fun _ _ => rfl⟩

/-- The first failing scale lane has number 4 or 5. -/
theorem firstUnfitScale_le {p : Vec2} {info : BitVec 4} (h : firstUnfitScale p = some info) : info ≤ 5 := by
  unfold firstUnfitScale at h
  split at h
  · cases h; decide
  split at h
  · cases h; decide
  · cases h

/-- The number BGSRP reports is of a scale lane, or of a coefficient of the composite (43_compose.md R180). -/
theorem bgsrp_failing_le {p : Vec2} {w : WorkingMatrix} {info : BitVec 4}
    (h : ((firstUnfitScale p).orElse fun _ => firstUnfit w) = some info) : info ≤ 5 := by
  cases hs : firstUnfitScale p with
  | some n =>
    rw [hs] at h
    cases h
    exact firstUnfitScale_le hs
  | none =>
    rw [hs] at h
    exact BitVec.le_trans (firstUnfit_le w info h) (by decide)

/-- A fallible command completes into its destination, or raises Overflow with the number of its failing value. -/
theorem endFallible_frame {s done t : State} {i : Instr} {bad : Option (BitVec 4)} {r : Reg}
    (h : Host.Outcome.next (s.endFallible i bad done) = (.next t : Host.Outcome State Fault Refusal)) (hdone : OnlyWrites r s done)
    (hinfo : ∀ info, bad = some info → overflowInfo i info) :
    CompletesInto r s t ∨ ∃ info, overflowInfo i info ∧ OverflowRaised info (encode i) s t := by
  cases h
  rcases endFallible_cases s i bad done with ⟨info, hbad, heq⟩ | ⟨-, heq⟩
  · rw [heq]
    exact .inr ⟨info, hinfo info hbad, overflowRaised_raiseOverflow s info _⟩
  · rw [heq]
    exact .inl (completesInto_of_onlyWrites hdone)

/-- Everything a command can do: it writes its destination alone; or, where it is fallible, it completes or raises Overflow. -/
theorem exec_cases {i : Instr} {s t : State} (h : exec i s = .next t) :
    (fallible i = false ∧ OnlyWrites (dest i) s t)
    ∨ (fallible i = true
      ∧ (CompletesInto (dest i) s t ∨ ∃ info, overflowInfo i info ∧ OverflowRaised info (encode i) s t)) := by
  cases i with
  | ident d | rot d | trn d | scl d | mul d | widbg d | widobj d => cases h; exact .inl ⟨rfl, onlyWrites_writeM s d _⟩
  | pos d => cases h; exact .inl ⟨rfl, onlyWrites_writeV s d _⟩
  | wrpbg d => cases h; exact .inl ⟨rfl, onlyWrites_writeB s d _⟩
  | wrpobj d => cases h; exact .inl ⟨rfl, onlyWrites_writeO s d _⟩
  | trybg d a => exact .inr ⟨rfl, endFallible_frame h (onlyWrites_writeB s d _) fun info hi => ⟨rfl, firstUnfit_le _ info hi⟩⟩
  | tryobj d a => exact .inr ⟨rfl, endFallible_frame h (onlyWrites_writeO s d _) fun info hi => ⟨rfl, firstUnfit_le _ info hi⟩⟩
  | bgsrp d a b c e => exact .inr ⟨rfl, endFallible_frame h (onlyWrites_writeB s d _) fun _ hi => bgsrp_failing_le hi⟩

/-- Settles O32: the three ways a command can end. -/
theorem commandRegisterFrame : Obligations.CommandRegisterFrame := by
  intro i s t h
  rcases exec_cases h with ⟨hf, hregs, hctl, hport⟩ | ⟨hf, hc | ⟨info, hi, ho⟩⟩
  · exact ⟨hregs, hport, by rw [hctl], fun _ => hctl, fun h => by simp [hf] at h⟩
  · have ⟨hregs, hctl, hport⟩ := hc
    exact ⟨hregs, hport, by rw [hctl], fun h => by simp [hf] at h, fun _ => .inl hc⟩
  · have ⟨hregs, hctl, hport⟩ := ho
    exact ⟨sameExcept_of_eq _ hregs, hport, by rw [hctl], fun h => by simp [hf] at h, fun _ => .inr ⟨info, hi, ho⟩⟩

/-! ### Bytes (20_memory.md R63) -/

/-- The register a field of the window belongs to. -/
def Slot.reg : Slot → Reg
  | .mCoef i _ => .m i
  | .mTrans i _ => .m i
  | .vLane i _ => .v i
  | .bCoef i _ => .b i
  | .bTrans i _ => .b i
  | .oCoef i _ => .o i

theorem Coef.number_le (f : Coef) : f.number ≤ 3 := by cases f <;> decide

theorem Lane.number_le (l : Lane) : l.number ≤ 1 := by cases l <;> decide

/-- A field's bytes lie in the image of its register. -/
theorem covers_slot (u : Slot) (k : Nat) (hk : k < u.size) : u.reg.covers (u.offset + k) := by
  cases u with
  | mCoef i f | bCoef i f | oCoef i f =>
    have := f.number_le
    simp only [Reg.covers, Slot.reg, Slot.offset, Slot.size, Reg.offset, Reg.size] at hk ⊢
    omega
  | mTrans i l | vLane i l | bTrans i l =>
    have := l.number_le
    simp only [Reg.covers, Slot.reg, Slot.offset, Slot.size, Reg.offset, Reg.size] at hk ⊢
    omega

theorem slotByte_of_sameExcept {r : Reg} {s t : DataRegs} (h : SameExcept r s t) (u : Slot) (k : Nat) (hu : r ≠ u.reg) :
    t.slotByte u k = s.slotByte u k := by
  obtain ⟨hm, hv, hb, ho⟩ := h
  cases u with
  | mCoef i | mTrans i => simp only [DataRegs.slotByte, hm i hu]
  | vLane i => simp only [DataRegs.slotByte, hv i hu]
  | bCoef i | bTrans i => simp only [DataRegs.slotByte, hb i hu]
  | oCoef i => simp only [DataRegs.slotByte, ho i hu]

/-- A byte outside a register's image is the same where the other registers and, for a control byte, the control registers are. -/
theorem readByte_of_sameExcept {r : Reg} {s t : State} (h : SameExcept r s.regs t.regs) {off : Nat} (hr : ¬ r.covers off)
    (hc : inControl off = false ∨ t.ctl = s.ctl) : t.readByte off = s.readByte off := by
  unfold State.readByte
  cases hl : locate off with
  | some p =>
    obtain ⟨u, k⟩ := p
    obtain ⟨hoff, hk⟩ := locate_sound off u k hl
    have hu : r ≠ u.reg := fun hru => hr (hru ▸ hoff ▸ covers_slot u k hk)
    exact congrArg some (slotByte_of_sameExcept h u k hu)
  | none =>
    rcases hc with hc | hc
    · simp [hc]
    · simp [hc]

/-- Settles O33: the register frame, seen through the map of the window. -/
theorem commandByteFrame : Obligations.CommandByteFrame := by
  intro i s t h off hr hc
  obtain ⟨hregs, -, -, hctl, -⟩ := commandRegisterFrame i s t h
  exact readByte_of_sameExcept hregs hr (hc.imp_right hctl)

/-! ### What a command does not read (R32) -/

/-- A fallible command's data registers and OVF follow from the data registers before it and its failing value alone. -/
theorem endFallible_reads_no_control {s s' done done' : State} (i : Instr) (bad : Option (BitVec 4)) (hs : s.regs = s'.regs)
    (hdone : done.regs = done'.regs) :
    (s.endFallible i bad done).regs = (s'.endFallible i bad done').regs
      ∧ (fallible i = true → (s.endFallible i bad done).ctl.ovf = (s'.endFallible i bad done').ctl.ovf) := by
  rw [endFallible_regs, endFallible_regs, endFallible_ovf, endFallible_ovf, hs, hdone]
  exact ⟨rfl, fun _ => rfl⟩

/-- Settles O34: every source is a data register, so that both runs find the same values. -/
theorem commandsReadNoControlState : Obligations.CommandsReadNoControlState := by
  intro i s c q
  cases i with
  | trybg | tryobj | bgsrp => exact ⟨_, _, rfl, rfl, endFallible_reads_no_control _ _ rfl rfl⟩
  | ident | rot | trn | scl | pos | mul | wrpbg | wrpobj | widbg | widobj =>
    exact ⟨_, _, rfl, rfl, rfl, fun h => absurd h Bool.false_ne_true⟩

end Sys2Proof.Machine

/-! What a step does to the control registers, said once (10_state.md R33 to R40), and the statements on flags, exception record, stops and
reset that follow from it. -/

namespace Sys2Proof.Machine

/-! ### The control registers after a step -/

/-- Everything a step can do to the control registers: nothing; a reset; a STATUS write; the end of a fallible command, without or with
Overflow; an illegal word. -/
theorem step_ctl_cases {s t : State} (h : step s = .next t) :
    t.ctl = s.ctl
    ∨ (∃ data rest, s.port.pending = .reset data :: rest ∧ t.ctl = Control.reset)
    ∨ (∃ v rest, s.port.pending = .write 0x184 4 v :: rest ∧ t.ctl = s.ctl.clearFlags v)
    ∨ (∃ w rest i, s.port.pending = .write 0x180 4 w :: rest ∧ decode w = .ok i ∧ fallible i = true
        ∧ t.ctl = { s.ctl with ovf := false })
    ∨ (∃ w rest i info, s.port.pending = .write 0x180 4 w :: rest ∧ decode w = .ok i ∧ fallible i = true ∧ overflowInfo i info
        ∧ t.regs = s.regs ∧ t.ctl = ⟨true, true, s.ctl.ill, 1, info, w⟩)
    ∨ (∃ w rest e, s.port.pending = .write 0x180 4 w :: rest ∧ decode w = .error e
        ∧ t.regs = s.regs ∧ t.ctl = ⟨s.ctl.ovf, s.ctl.sovf, true, 2, e.reason, w⟩) := by
  rcases step_cases s t h with ⟨-, rfl⟩ | ⟨data, rest, hp, rfl⟩ | ⟨_, _, _, -, -, rfl⟩ | ⟨v, rest, hp, rfl⟩ | ⟨_, _, _, _, -, -, rfl⟩
    | ⟨w, rest, i, hp, hd, hexec⟩ | ⟨w, rest, e, hp, hd, rfl⟩
  · exact .inl rfl
  · exact .inr (.inl ⟨data, rest, hp, rfl⟩)
  · exact .inl rfl
  · exact .inr (.inr (.inl ⟨v, rest, hp, rfl⟩))
  · exact .inl rfl
  · rcases exec_cases hexec with ⟨-, -, hctl, -⟩ | ⟨hf, ⟨-, hctl, -⟩ | ⟨info, hi, hregs, hctl, -⟩⟩
    · exact .inl hctl
    · exact .inr (.inr (.inr (.inl ⟨w, rest, i, hp, hd, hf, hctl⟩)))
    · rw [encode_of_decode hd] at hctl
      exact .inr (.inr (.inr (.inr (.inl ⟨w, rest, i, info, hp, hd, hf, hi, hregs, hctl⟩))))
  · exact .inr (.inr (.inr (.inr (.inr ⟨w, rest, e, hp, hd, rfl, rfl⟩))))

/-! ### The exception record (R39, R40) -/

/-- A change of the flags alone keeps the record true, where it leaves the reset value as it is. -/
theorem consistentRecord_of_same_record {c c' : Control} (h : ConsistentRecord c) (hcode : c'.code = c.code) (hinfo : c'.info = c.info)
    (hecmd : c'.ecmd = c.ecmd) (hreset : c = Control.reset → c' = Control.reset) : ConsistentRecord c' := by
  unfold ConsistentRecord
  rw [hcode, hinfo, hecmd]
  exact h.imp_left hreset

/-- Settles O58: the flags change alone, or the record is written whole with the word that raises. -/
theorem exceptionRecordStaysConsistent : Obligations.ExceptionRecordStaysConsistent := by
  intro s t hs h
  rcases step_ctl_cases h with hc | ⟨_, _, -, hc⟩ | ⟨v, _, -, hc⟩ | ⟨_, _, _, -, -, -, hc⟩ | ⟨w, _, i, info, -, hd, -, hi, -, hc⟩
    | ⟨w, _, e, -, hd, -, hc⟩
  · exact hc ▸ hs
  · exact .inl hc
  · refine hc ▸ consistentRecord_of_same_record hs rfl rfl rfl fun hr => ?_
    rw [hr]
    rfl
  · refine hc ▸ consistentRecord_of_same_record hs rfl rfl rfl fun hr => ?_
    rw [hr]
    rfl
  · rw [hc]
    exact .inr (.inl ⟨rfl, i, hd, hi⟩)
  · rw [hc]
    exact .inr (.inr ⟨rfl, e, hd, rfl⟩)

/-- Settles O55: of the ways a step treats the control registers, only a reset and the two exceptions write the record. -/
theorem exceptionRecordWrittenOnlyByRaise : Obligations.ExceptionRecordWrittenOnlyByRaise := by
  intro s t h hne
  rcases step_ctl_cases h with hc | ⟨data, rest, hp, -⟩ | ⟨_, _, -, hc⟩ | ⟨_, _, _, -, -, -, hc⟩ | ⟨w, rest, _, _, hp, -, -, -, hregs, hc⟩
    | ⟨w, rest, _, hp, -, hregs, hc⟩
  · exact absurd (by rw [hc]) hne
  · exact .inl ⟨data, rest, hp⟩
  · exact absurd (by rw [hc]; rfl) hne
  · exact absurd (by rw [hc]) hne
  · exact .inr ⟨w, rest, hp, by rw [hc], hregs, .inl (by simp [hc])⟩
  · exact .inr ⟨w, rest, hp, by rw [hc], hregs, .inr (by simp [hc])⟩

/-! ### The flags (R33 to R35) -/

/-- Settles O54: of the ways a step treats the control registers, a reset and the two ends of a fallible command write OVF. -/
theorem ovfWrittenOnlyByFallibleCommands : Obligations.OvfWrittenOnlyByFallibleCommands := by
  intro s t h hne
  rcases step_ctl_cases h with hc | ⟨data, rest, hp, -⟩ | ⟨_, _, -, hc⟩ | ⟨w, rest, i, hp, hd, hf, -⟩
    | ⟨w, rest, i, _, hp, hd, hf, -⟩ | ⟨_, _, _, -, -, -, hc⟩
  · exact absurd (by rw [hc]) hne
  · exact .inl ⟨data, rest, hp⟩
  · exact absurd (by rw [hc]; rfl) hne
  · exact .inr ⟨w, rest, i, hp, hd, hf⟩
  · exact .inr ⟨w, rest, i, hp, hd, hf⟩
  · exact absurd (by rw [hc]) hne

/-- A step that is no reset leaves SOVF and ILL set, except where the value written to STATUS has their bits set. -/
theorem sticky_flags_after_step {s t : State} (h : step s = .next t) :
    (∃ data rest, s.port.pending = .reset data :: rest)
    ∨ (∃ v rest, s.port.pending = .write 0x184 4 v :: rest ∧ t.ctl = s.ctl.clearFlags v)
    ∨ ((s.ctl.sovf = true → t.ctl.sovf = true) ∧ (s.ctl.ill = true → t.ctl.ill = true)) := by
  rcases step_ctl_cases h with hc | ⟨data, rest, hp, -⟩ | hstatus | ⟨_, _, _, -, -, -, hc⟩ | ⟨_, _, _, _, -, -, -, -, -, hc⟩
    | ⟨_, _, _, -, -, -, hc⟩
  · exact .inr (.inr (by simp [hc]))
  · exact .inl ⟨data, rest, hp⟩
  · exact .inr (.inl hstatus)
  · exact .inr (.inr (by simp [hc]))
  · exact .inr (.inr (by simp [hc]))
  · exact .inr (.inr (by simp [hc]))

/-- Settles O53: a reset, a STATUS write, or a step that keeps both flags set. -/
theorem stickyFlagsClearedOnlyByHost : Obligations.StickyFlagsClearedOnlyByHost := by
  intro s t h
  rcases sticky_flags_after_step h with hreset | ⟨v, rest, hp, hc⟩ | ⟨hsovf, hill⟩
  · exact ⟨fun _ _ => .inl hreset, fun _ _ => .inl hreset⟩
  · refine ⟨fun hset hclear => .inr ⟨v, rest, hp, ?_⟩, fun hset hclear => .inr ⟨v, rest, hp, ?_⟩⟩
    · simpa [hc, Control.clearFlags, hset] using hclear
    · simpa [hc, Control.clearFlags, hset] using hclear
  · exact ⟨fun hset hclear => by simp [hsovf hset] at hclear, fun hset hclear => by simp [hill hset] at hclear⟩

/-! ### Which events stop a step (20_memory.md R61) -/

/-- A write in the window is always answered by a next state. -/
theorem memWrite_answers_next (off n : Nat) (v : Word) (s : State) : ∃ t, memWrite off n v s = .next t := by
  rcases memWrite_cases off n v s with ⟨-, hm⟩ | ⟨-, -, hm⟩ | ⟨-, -, hm⟩ | ⟨-, -, -, hm⟩
  · exact ⟨_, hm⟩
  · rw [hm]
    exact executeCommand_answers_next v _
  · exact ⟨_, hm⟩
  · exact ⟨_, hm⟩

theorem perform_of_answerable {e : HostEvent} (h : Answerable e) (s : State) : ∃ t, perform e s = .next t := by
  cases e with
  | read off n => exact ⟨_, if_pos h⟩
  | write off n v =>
    obtain ⟨t, ht⟩ := memWrite_answers_next off n v s
    exact ⟨t, (if_pos h).trans ht⟩
  | reset data => exact ⟨_, rfl⟩

theorem perform_of_not_answerable {e : HostEvent} (h : ¬ Answerable e) (s : State) : perform e s = .refused .outsideWindow := by
  cases e with
  | read off n => exact if_neg h
  | write off n v => exact if_neg h
  | reset data => exact absurd trivial h

/-- Settles O57: a step with nothing pending, or with an event AME answers, gives a next state. -/
theorem onlyForeignTransactionsAreRefused : Obligations.OnlyForeignTransactionsAreRefused := by
  intro s r h
  cases hp : s.port.pending with
  | nil =>
    rw [step_of_nil s hp] at h
    cases h
  | cons e rest =>
    rw [step_of_cons s e rest hp] at h
    by_cases ha : Answerable e
    · obtain ⟨t, ht⟩ := perform_of_answerable ha (s.withPending rest)
      rw [ht] at h
      cases h
    · rw [perform_of_not_answerable ha] at h
      cases h
      exact ⟨rfl, e, rest, rfl, ha⟩

/-! ### The queue of host events (R74) -/

/-- A step takes exactly the oldest event: no event adds to the queue or removes from it. -/
theorem pending_after_step {s t : State} (h : step s = .next t) : t.port.pending = s.port.pending.tail := by
  rcases step_cases s t h with ⟨hp, rfl⟩ | ⟨_, _, hp, rfl⟩ | ⟨_, _, _, hp, -, rfl⟩ | ⟨_, _, hp, rfl⟩ | ⟨_, _, _, _, hp, -, rfl⟩
    | ⟨_, _, _, hp, -, hexec⟩ | ⟨_, _, _, hp, -, rfl⟩
  · rw [hp]; rfl
  · rw [hp]; rfl
  · rw [hp]; rfl
  · rw [hp]; rfl
  · rw [hp]; rfl
  · rw [exec_keeps_port hexec, hp]; rfl
  · rw [hp]; rfl

theorem step_of_safeRun {s : State} (h : SafeRun s) : ∃ t, step s = .next t := by
  cases hp : s.port.pending with
  | nil => exact ⟨s, step_of_nil s hp⟩
  | cons e rest =>
    rw [step_of_cons s e rest hp]
    exact perform_of_answerable (h e (by simp [hp])) _

/-- Settles O56: the oldest event is one AME answers, and only the later ones stay pending. -/
theorem answerableRunsNeverStop : Obligations.AnswerableRunsNeverStop := by
  refine ⟨fun s hs => ?_, fun s t e rest hp h => ?_⟩
  · obtain ⟨t, ht⟩ := step_of_safeRun hs
    refine ⟨t, ht, fun e he => hs e ?_⟩
    rw [pending_after_step ht] at he
    exact List.mem_of_mem_tail he
  · rw [pending_after_step h, hp]
    rfl

/-! ### A command word and a reset (10_state.md R37; 70_reset_and_hazards.md R230 to R232) -/

/-- Settles O50: the step runs the written word, which is the decoded command's. -/
theorem stepRunsDecodedCommand : Obligations.StepRunsDecodedCommand := fun s w i rest h hd =>
  (step_of_cmd_write s w rest h).trans (executeCommand_of_decode w i _ hd)

theorem statusWord_reset : Control.reset.statusWord = 0 := by decide

theorem causeWord_reset : Control.reset.causeWord = 0 := by decide

/-- Settles O59: the step performs the reset on the state with the later events pending. -/
theorem resetLeavesResetDataAndClearControl : Obligations.ResetLeavesResetDataAndClearControl := fun s data rest h =>
  ⟨applyReset data (s.withPending rest), step_of_cons s _ rest h, rfl, statusWord_reset, causeWord_reset, rfl, rfl⟩

/-- Settles O60: the control registers after reset are the record's first case, and the queue is empty. -/
theorem resetStateIsConsistent : Obligations.ResetStateIsConsistent :=
  ⟨fun _ => ⟨statusWord_reset, causeWord_reset, rfl, .inl rfl⟩, ⟨DataRegs.zero, rfl⟩, fun _ he => absurd he List.not_mem_nil⟩

end Sys2Proof.Machine

/-! The window's place on the bus, the admission of a transaction, and writes of the data region (20_memory.md R61 to R67, R71). -/

namespace Sys2Proof.Machine

/-! ### The place of the window (R61, R62) -/

theorem base_mod_windowSize : Config.base % 0x200 = 0 := Nat.mul_mod_right _ _

/-- BASE being a multiple of 0x200, an address leaves the remainder of its offset for every divisor of 0x200. -/
theorem addrOf_mod (off n : Nat) (h : n ∣ 0x200) : addrOf off % n = off % n := by
  have hbase : Config.base % n = 0 := Nat.mod_eq_zero_of_dvd (h.trans (Nat.dvd_of_mod_eq_zero base_mod_windowSize))
  rw [addrOf, Nat.add_mod, hbase, Nat.zero_add, Nat.mod_mod]

theorem size_dvd_windowSize {n : Nat} (h : n = 1 ∨ n = 2 ∨ n = 4) : n ∣ 0x200 := by
  rcases h with rfl | rfl | rfl <;> decide

theorem offsetOf_eq_some_iff (addr off : Nat) : offsetOf addr = some off ↔ addr = Config.base + off ∧ off < 0x200 := by
  have hsize : Config.windowSize = 0x200 := rfl
  unfold offsetOf
  split
  · rw [Option.some.injEq]
    omega
  · simp only [reduceCtorEq, false_iff]
    omega

/-- Settles O39: all four clauses follow from BASE being a multiple of 0x200. -/
theorem windowBaseAndAlignment : Obligations.WindowBaseAndAlignment := by
  refine ⟨base_mod_windowSize, fun off n hn => addrOf_mod off n (size_dvd_windowSize hn), fun i => ?_, offsetOf_eq_some_iff⟩
  rw [addrOf_mod _ 16 (by decide)]
  omega

/-! ### Admission (R65) -/

theorem readOnly_iff (off : Nat) : readOnly off = true ↔ 0x188 ≤ off ∧ off < 0x190 := by
  simp [readOnly]

theorem readByte_ne_none_iff (s : State) (off : Nat) : s.readByte off ≠ none ↔ inData off = true ∨ inControl off = true := by
  refine ⟨fun h => ?_, fun h => ?_⟩
  · by_contra hn
    obtain ⟨hd, hc⟩ := not_or.mp hn
    exact h (readByte_unmapped s off (by simpa [inData] using hd) (by simpa using hc))
  · obtain ⟨b, hb⟩ := readByte_mapped s off h
    simp [hb]

/-- The checks of `admitted` in the terms of R65: the address on the bus, the bytes that read as something in every state. -/
theorem admitted_iff_bus (isWrite : Bool) (off n : Nat) : admitted isWrite off n = true ↔
    (n = 1 ∨ n = 2 ∨ n = 4) ∧ addrOf off % n = 0
    ∧ (∀ (s : State), ∀ k < n, s.readByte (off + k) ≠ none)
    ∧ ((∃ k < n, 0x180 ≤ off + k ∧ off + k < 0x190) → n = 4)
    ∧ (isWrite = true → ¬ ∃ k < n, 0x188 ≤ off + k ∧ off + k < 0x190) := by
  have : Nonempty State := ⟨State.reset⟩
  simp only [admitted_iff, readByte_ne_none_iff, inControl_iff, readOnly_iff, forall_const]
  refine and_congr_right fun hn => ?_
  rw [addrOf_mod off n (size_dvd_windowSize hn)]

/-- An aligned transaction of four bytes that starts in the control region is one whole control register. -/
theorem admitted_data_or_control_register {isWrite : Bool} {off n : Nat} (h : admitted isWrite off n = true) :
    (∀ k < n, inData (off + k) = true) ∨ (n = 4 ∧ (off = 0x180 ∨ off = 0x184 ∨ off = 0x188 ∨ off = 0x18C)) := by
  refine (admitted_data_or_control isWrite off n h).imp_right fun hlo => ?_
  obtain ⟨hn, halign, hmapped, hwhole, -⟩ := (admitted_iff isWrite off n).mp h
  have hin : inControl off = true := by
    refine (hmapped 0 (by omega)).resolve_left fun hd => ?_
    simp [inData, locate_none_of_ge off (by omega)] at hd
  obtain rfl := hwhole ⟨0, by omega, hin⟩
  have hhi := ((inControl_iff off).mp hin).2
  exact ⟨rfl, by omega⟩

/-- Settles O41: the five checks in the terms of the rule, of which the fourth makes a control access whole. -/
theorem admissionConditions : Obligations.AdmissionConditions := fun isWrite off n =>
  ⟨admitted_iff_bus isWrite off n, admitted_data_or_control_register⟩

/-! ### A write of the data region (R67) -/

theorem inData_of_admitted_below {isWrite : Bool} {off n : Nat} (h : admitted isWrite off n = true) (hlt : off < 0x180) :
    ∀ k < n, inData (off + k) = true :=
  (admitted_data_or_control isWrite off n h).resolve_right (by omega)

theorem step_of_data_write {s : State} {off n : Nat} {v : Word} {rest : List HostEvent} (h : s.port.pending = .write off n v :: rest)
    (ha : admitted true off n = true) (hlt : off < 0x180) :
    step s = .next ⟨s.regs.writeWindow off n v, s.ctl, ⟨rest, some .ok⟩⟩ := by
  have hc : off ≠ cmdOffset := by unfold cmdOffset; omega
  have hs : off ≠ statusOffset := by unfold statusOffset; omega
  rw [step_of_write s off n v rest h (inWindow_of_admitted true off n ha), memWrite, if_pos ha, if_neg hc, if_neg hs]
  rfl

/-- A byte of the window after a data write: the byte of the value where it was addressed, else as before. -/
theorem readByte_writeWindow (s : State) (p : Port) (off n : Nat) (v : Word) (hd : ∀ k < n, inData (off + k) = true) (o : Nat) :
    State.readByte ⟨s.regs.writeWindow off n v, s.ctl, p⟩ o =
      if off ≤ o ∧ o < off + n then some (byteOf v (o - off)) else s.readByte o := by
  unfold State.readByte
  cases hl : locate o with
  | some q =>
    obtain ⟨t, k⟩ := q
    obtain ⟨rfl, hk⟩ := locate_sound o t k hl
    exact (congrArg some (slotByte_writeWindow s.regs off n v t k hd hk)).trans (apply_ite some _ _ _)
  | none =>
    have hout : ¬ (off ≤ o ∧ o < off + n) := fun ⟨hlo, hhi⟩ => by
      have hdata := hd (o - off) (by omega)
      simp [inData, Nat.add_sub_cancel' hlo, hl] at hdata
    rw [if_neg hout]

theorem readByte_writeWindow_addressed (s : State) (p : Port) {off n : Nat} (v : Word) (hd : ∀ k < n, inData (off + k) = true) {k : Nat}
    (hk : k < n) : State.readByte ⟨s.regs.writeWindow off n v, s.ctl, p⟩ (off + k) = some (byteOf v k) := by
  rw [readByte_writeWindow s p off n v hd, if_pos (by omega), Nat.add_sub_cancel_left]

/-- Settles O45: the write reaches data bytes only, each of which it replaces. -/
theorem dataWriteReplacesAddressedBytes : Obligations.DataWriteReplacesAddressedBytes := by
  intro s off n v rest h ha hlt
  have hd := inData_of_admitted_below ha hlt
  exact ⟨_, step_of_data_write h ha hlt, rfl, rfl, fun k hk => readByte_writeWindow_addressed s _ v hd hk,
    fun o ho => (readByte_writeWindow s _ off n v hd o).trans (if_neg ho)⟩

/-! ### A read after a write (R66, R74) -/

theorem admitted_read_of_write {off n : Nat} (h : admitted true off n = true) : admitted false off n = true := by
  obtain ⟨hsize, halign, hmapped, hwhole, -⟩ := (admitted_iff true off n).mp h
  exact (admitted_iff false off n).mpr ⟨hsize, halign, hmapped, hwhole, fun h => absurd h Bool.false_ne_true⟩

/-- A word with the low `n` bytes of `v` and none above is `v` modulo 2^(8n). -/
theorem eq_ofNat_mod_of_bytes {u v : Word} {n : Nat} (hbytes : ∀ k < n, byteOf u k = byteOf v k) (hlt : u.toNat < 2 ^ (8 * n)) :
    u = BitVec.ofNat 32 (v.toNat % 2 ^ (8 * n)) := by
  apply BitVec.eq_of_getLsbD_eq
  intro j hj
  rw [BitVec.getLsbD_ofNat, Nat.testBit_mod_two_pow, BitVec.testBit_toNat]
  by_cases hn : j < 8 * n
  · have hbyte := congrArg (fun b : Byte => b.getLsbD (j % 8)) (hbytes (j / 8) (by omega))
    simp only [byteOf_getLsbD, Nat.div_add_mod] at hbyte
    simpa [hj, hn, Nat.mod_lt] using hbyte
  · have hhigh : u.getLsbD j = false :=
      Nat.testBit_lt_two_pow (lt_of_lt_of_le hlt (Nat.pow_le_pow_right (by decide) (by omega)))
    simp [hn, hhigh]

/-- Settles O46: the read's bytes are those the write put there, with none above them. -/
theorem readAfterWriteReturnsValue : Obligations.ReadAfterWriteReturnsValue := by
  intro s off n v rest h ha hlt
  have hd := inData_of_admitted_below ha hlt
  obtain ⟨u, hread, hbytes, hu⟩ := readReturnsBytesAndChangesNothing
    ⟨s.regs.writeWindow off n v, s.ctl, ⟨.read off n :: rest, some .ok⟩⟩ off n rest rfl (admitted_read_of_write ha)
  have hvalue : u = BitVec.ofNat 32 (v.toNat % 2 ^ (8 * n)) := by
    refine eq_ofNat_mod_of_bytes (fun k hk => Option.some_injective _ ?_) hu
    exact (hbytes k hk).symm.trans (readByte_writeWindow_addressed s _ v hd hk)
  exact ⟨_, _, step_of_data_write h ha hlt, hread, by rw [hvalue], rfl⟩

end Sys2Proof.Machine

/-! What reads of particular registers return: the control registers (10_state.md R36, R41) and accesses of mixed width (20_memory.md R71). -/

namespace Sys2Proof.Machine

/-! ### Control registers (R36, R41) -/

theorem statusWord_flags (c : Control) : c.statusWord.getLsbD 0 = c.ovf ∧ c.statusWord.getLsbD 1 = c.sovf
    ∧ c.statusWord.getLsbD 2 = c.ill ∧ c.statusWord >>> 3 = 0 := by
  have h : ∀ ovf sovf ill : Bool, let v := flagBit ill 2 ||| flagBit sovf 1 ||| flagBit ovf 0
      v.getLsbD 0 = ovf ∧ v.getLsbD 1 = sovf ∧ v.getLsbD 2 = ill ∧ v >>> 3 = 0 := by decide
  exact h c.ovf c.sovf c.ill

theorem causeWord_getLsbD (c : Control) (j : Nat) (hj : j < 32) :
    c.causeWord.getLsbD j = if j < 4 then c.code.getLsbD j else c.info.getLsbD (j - 4) := by
  simp only [Control.causeWord, BitVec.getLsbD_or, BitVec.getLsbD_shiftLeft, BitVec.getLsbD_setWidth]
  by_cases h : j < 4
  · simp [h, hj]
  · simp [h, hj, show j - 4 < 32 by omega, BitVec.getLsbD_of_ge c.code j (by omega)]

theorem causeWord_fields (c : Control) : c.causeWord.extractLsb' 0 4 = c.code ∧ c.causeWord.extractLsb' 4 4 = c.info
    ∧ c.causeWord >>> 8 = 0 := by
  refine ⟨?_, ?_, ?_⟩ <;> apply BitVec.eq_of_getLsbD_eq <;> intro j hj
  · rw [BitVec.getLsbD_extractLsb', causeWord_getLsbD c _ (by omega)]
    simp [hj]
  · rw [BitVec.getLsbD_extractLsb', causeWord_getLsbD c _ (by omega)]
    simp [hj]
  · rw [BitVec.getLsbD_ushiftRight]
    by_cases h : 8 + j < 32
    · rw [causeWord_getLsbD c _ h, if_neg (by omega), BitVec.getLsbD_of_ge _ _ (by omega)]
      simp
    · rw [BitVec.getLsbD_of_ge _ _ (by omega)]
      simp

/-- The step of a whole read of a control register answers its value. -/
theorem step_of_control_read {s : State} {off : Nat} {rest : List HostEvent} (h : s.port.pending = .read off 4 :: rest)
    (ha : admitted false off 4 = true) (hc : inControl off = true) (h4 : off % 4 = 0) :
    step s = .next ⟨s.regs, s.ctl, ⟨rest, some (.okData (s.ctl.valueAt off))⟩⟩ := by
  rw [step_of_admitted_read s off 4 rest h ha, readWindow_control s off hc h4]

/-- Settles O44: each read is one of a whole control register, whose value has the stored bits and zeros. -/
theorem controlRegisterReadValues : Obligations.ControlRegisterReadValues := fun s _ =>
  ⟨fun h => step_of_control_read h (by decide) (by decide) (by decide),
    fun h => ⟨_, step_of_control_read h (by decide) (by decide) (by decide), statusWord_flags s.ctl⟩,
    fun h => ⟨_, step_of_control_read h (by decide) (by decide) (by decide), causeWord_fields s.ctl⟩,
    fun h => step_of_control_read h (by decide) (by decide) (by decide)⟩

/-! ### Mixed widths (R71) -/

theorem byteOf_readWindow (s : State) (off n k : Nat) (hk : k < 4) :
    byteOf (s.readWindow off n) k = if k < n then (s.readByte (off + k)).getD 0 else 0 := by
  rw [State.readWindow, byteOf_wordOfBytes _ k hk]
  by_cases h : k < n
  · simp [h]
  · simp [h]

theorem byteOf_append_low (hi lo : Narrow) (k : Nat) (hk : k < 2) : byteOf (hi ++ lo) k = byteOf lo k := by
  apply BitVec.eq_of_getLsbD_eq
  intro j hj
  rw [byteOf_getLsbD, byteOf_getLsbD, BitVec.getLsbD_append]
  simp [show 8 * k + j < 16 by omega]

theorem byteOf_append_high (hi lo : Narrow) (k : Nat) : byteOf (hi ++ lo) (2 + k) = byteOf hi k := by
  apply BitVec.eq_of_getLsbD_eq
  intro j hj
  rw [byteOf_getLsbD, byteOf_getLsbD, BitVec.getLsbD_append]
  simp [show ¬ 8 * (2 + k) + j < 16 by omega, show 8 * (2 + k) + j - 16 = 8 * k + j by omega]

/-- Byte `k` of the upper half of a wide value, widened with zeros. -/
theorem byteOf_upperHalf (v : Wide) (k : Nat) (hk : k < 4) :
    byteOf ((v.extractLsb' 16 16).setWidth 32) k = if k < 2 then byteOf v (2 + k) else 0 := by
  apply BitVec.eq_of_getLsbD_eq
  intro j hj
  rw [byteOf_getLsbD, BitVec.getLsbD_setWidth, BitVec.getLsbD_extractLsb']
  by_cases h : k < 2
  · rw [if_pos h, byteOf_getLsbD]
    simp [hj, show 8 * k + j < 32 by omega, show 8 * k + j < 16 by omega, show 16 + (8 * k + j) = 8 * (2 + k) + j by omega]
  · rw [if_neg h]
    simp [show ¬ 8 * k + j < 16 by omega]

/-- The word at B0.a is B0.a below B0.b. -/
theorem readWindow_b0_a_b (s : State) : s.readWindow 0x0C0 4 = (s.readB 0).b ++ (s.readB 0).a := by
  refine wide_ext_bytes fun k hk => ?_
  rw [byteOf_readWindow s _ _ k hk, if_pos hk]
  by_cases h : k < 2
  · have hbyte : s.readByte (0x0C0 + k) = some (byteOf (s.readB 0).a k) := readByte_slot s (.bCoef 0 .a) k h
    rw [hbyte, byteOf_append_low _ _ k h]
    rfl
  · obtain ⟨l, rfl⟩ : ∃ l, k = 2 + l := ⟨k - 2, by omega⟩
    have hbyte : s.readByte (0x0C2 + l) = some (byteOf (s.readB 0).b l) :=
      readByte_slot s (.bCoef 0 .b) l (show l < 2 by omega)
    rw [byteOf_append_high, ← Nat.add_assoc, hbyte]
    rfl

/-- The half word two bytes into B0.x is its upper half. -/
theorem readWindow_b0_x_upper (s : State) : s.readWindow 0x0CA 2 = ((s.readB 0).x.extractLsb' 16 16).setWidth 32 := by
  refine wide_ext_bytes fun k hk => ?_
  rw [byteOf_readWindow s _ _ k hk, byteOf_upperHalf _ k hk]
  refine if_ctx_congr Iff.rfl (fun h => ?_) fun _ => rfl
  have hbyte : s.readByte (0x0C8 + (2 + k)) = some (byteOf (s.readB 0).x (2 + k)) :=
    readByte_slot s (.bTrans 0 .x) (2 + k) (show 2 + k < 4 by omega)
  rw [← Nat.add_assoc] at hbyte
  rw [hbyte]
  rfl

/-- Settles O48: the bytes of both words are bytes of the fields that stand at their offsets. -/
theorem mixedWidthReads : Obligations.MixedWidthReads := fun s =>
  ⟨readWindow_b0_a_b s, readWindow_b0_x_upper s⟩

end Sys2Proof.Machine

/-! Angles and the trigonometric table (40_fixed_point.md R127 to R130), and what follows for the product, the command sequences of
95_test_vectors.md, and BGSRP (43_compose.md R180, R183). -/

namespace Sys2Proof.Machine

/-! ### The table index (R127) -/

theorem toNat_angleOf (v : Vec2) : (angleOf v).toNat = v.x.toNat % 256 := by
  rw [angleOf, BitVec.extractLsb'_toNat, Nat.shiftRight_zero]

theorem angleOf_eq_toInt_emod (v : Vec2) : ((angleOf v).toNat : Int) = v.x.toInt % 256 := by
  rw [toNat_angleOf, BitVec.toInt_eq_toNat_cond]
  split <;> omega

/-- A whole number of turns has no bits in the reduced angle. -/
theorem angleOf_add_turns (v : Vec2) (turns : Wide) : angleOf ⟨v.x + turns <<< 8, v.y⟩ = angleOf v := by
  apply BitVec.eq_of_toNat_eq
  rw [toNat_angleOf, toNat_angleOf, BitVec.toNat_add, BitVec.toNat_shiftLeft, Nat.shiftLeft_eq]
  omega

/-- Settles O5: the index is the low byte of lane x, which whole turns do not reach. -/
theorem angleReducesModuloOneTurn : Obligations.AngleReducesModuloOneTurn := fun v =>
  ⟨angleOf_eq_toInt_emod v, fun _ => rfl, angleOf_add_turns v⟩

/-! ### The table (R128 to R130) -/

/-- A table value has magnitude at most 1.0 (R130). -/
def TrigBounded (v : Wide) : Prop := -256 ≤ v.toInt ∧ v.toInt ≤ 256

theorem trigBounded_trigEntry (n : Fin 513) : TrigBounded (trigEntry n) := by
  have := n.isLt
  rw [TrigBounded, trigEntry_toInt]
  omega

theorem trigBounded_pins : TrigBounded 0 ∧ TrigBounded one ∧ TrigBounded 0xFFFFFF00 := by
  unfold TrigBounded
  decide

theorem trigBounded_cosT (k : BitVec 8) : TrigBounded (cosT k) := by
  obtain ⟨hzero, hone, hneg⟩ := trigBounded_pins
  unfold cosT
  split_ifs
  · exact hone
  · exact hzero
  · exact hneg
  · exact hzero
  · exact trigBounded_trigEntry _

theorem trigBounded_sinT (k : BitVec 8) : TrigBounded (sinT k) := by
  obtain ⟨hzero, hone, hneg⟩ := trigBounded_pins
  unfold sinT
  split_ifs
  · exact hzero
  · exact hone
  · exact hzero
  · exact hneg
  · exact trigBounded_trigEntry _

/-- Settles O6: the pins are evaluated, and a free entry keeps the bound by its type. -/
theorem trigTablePinnedAndBounded : Obligations.TrigTablePinnedAndBounded := by
  refine ⟨by decide, by decide, by decide, by decide, fun k => ?_⟩
  obtain ⟨hclo, hchi⟩ := trigBounded_cosT k
  obtain ⟨hslo, hshi⟩ := trigBounded_sinT k
  exact ⟨hclo, hchi, hslo, hshi⟩

/-! ### The product: no commutation, no association (41_working_matrix.md R150) -/

/-- Three scales of one lane: a half, the least positive value, and two. -/
theorem matmul_not_assoc : ∃ A B C : WorkingMatrix, matmul (matmul A B) C ≠ matmul A (matmul B C) :=
  ⟨scaleMatrix ⟨0x80, 0⟩, scaleMatrix ⟨0x1, 0⟩, scaleMatrix ⟨0x200, 0⟩, by decide⟩

/-- Settles O14: both products at the quarter turn and the two bracketings are evaluated. -/
theorem matmulNeitherCommutesNorAssociates : Obligations.MatmulNeitherCommutesNorAssociates :=
  ⟨by decide, matmul_not_assoc⟩

/-! ### Two command sequences (95_test_vectors.md S2 to S4) -/

theorem halfTurn_matmul_halfTurn : matmul (rotationMatrix 0x80) (rotationMatrix 0x80) = identityMatrix := by decide

/-- Settles O16: MUL multiplies the matrix that ROT wrote with itself. -/
theorem halfTurnSquaredIsIdentity : Obligations.HalfTurnSquaredIsIdentity := by
  intro s d a e h
  have hangle : angleOf (s.readV a) = 0x80 := h
  refine ⟨_, by simp only [execAll, exec_rot, exec_mul]; rfl, ?_⟩
  rw [readM_writeM_self, readM_writeM_self, hangle, halfTurn_matmul_halfTurn]
  rfl

/-- Settles O17: the product is over the translation that TRN wrote, and POS undoes its negation. -/
theorem translationIsRecoveredThroughMul : Obligations.TranslationIsRecoveredThroughMul := by
  intro s d a w e p hne hx hy
  refine ⟨_, by simp only [execAll, exec_trn, exec_mul, exec_pos]; rfl, ?_⟩
  rw [readV_writeV_self, readM_writeM_self, readM_writeM_self, readM_writeM_ne _ _ _ _ hne,
    positionOf_translationMatrix_matmul_of_zero _ _ hx hy]

/-! ### The composite's linear part (43_compose.md R183) -/

/-- The coefficients a, b, c, d of a working matrix. -/
def linearPart (W : WorkingMatrix) : Wide × Wide × Wide × Wide := (W.a, W.b, W.c, W.d)

/-- The linear part of a product is made of the factors' linear parts. -/
theorem linearPart_matmul_congr {P P' Q Q' : WorkingMatrix} (hP : linearPart P = linearPart P') (hQ : linearPart Q = linearPart Q') :
    linearPart (matmul P Q) = linearPart (matmul P' Q') := by
  simp only [linearPart, Prod.mk.injEq] at hP hQ
  simp only [linearPart, matmul, hP, hQ]

theorem linearPart_identityLinear_matmul (x y : Wide) (W : WorkingMatrix) :
    linearPart (matmul ⟨one, 0, 0, one, x, y⟩ W) = linearPart W := by
  rw [matmul_identityLinear_left]
  rfl

theorem linearPart_matmul_translationMatrix (W : WorkingMatrix) (p : Vec2) :
    linearPart (matmul W (translationMatrix p)) = linearPart W := by
  rw [translationMatrix, matmul_identityLinear_right]
  rfl

/-- Settles O28: the outer factors change no linear part, so that every bracketing has that of `S * R`. -/
theorem compositeLinearPartBracketsAlike : Obligations.CompositeLinearPartBracketsAlike := by
  intro o p s k T1 S R T2 linear
  have hT1 (W) : linear (matmul T1 W) = linear W := linearPart_identityLinear_matmul o.x o.y W
  have hT2 (W) : linear (matmul W T2) = linear W := linearPart_matmul_translationMatrix W p
  have hprod : ∀ P P' Q Q', linear P = linear P' → linear Q = linear Q' → linear (matmul P Q) = linear (matmul P' Q') :=
    fun _ _ _ _ => linearPart_matmul_congr
  have hcomposite : linear (composite o p s k) = linear (matmul S R) :=
    (hT2 _).trans (hprod _ _ _ _ (hT1 S) rfl)
  rw [hcomposite]
  refine ⟨?_, ?_, ?_, ?_⟩
  · exact (hprod _ _ _ _ (hT1 S) (hT2 R)).symm
  · rw [hT2, hT1]
  · rw [hT1, hT2]
  · rw [hT1]
    exact (hprod _ _ _ _ rfl (hT2 R)).symm

/-! ### BGSRP, whole (43_compose.md R180, R185) -/

/-- A product with a value of magnitude at most 1.0 is no larger than the other factor. -/
theorem fits8_fxmul {p q : Wide} (hp : fits8 p = true) (hq : TrigBounded q) : fits8 (fxmul p q) = true := by
  obtain ⟨hlo, hhi⟩ := (fits8_iff_toInt p).mp hp
  obtain ⟨hqlo, hqhi⟩ := hq
  have hprod : |p.toInt * q.toInt| ≤ 32767 * 256 := by
    rw [abs_mul]
    exact mul_le_mul (abs_le.mpr ⟨by omega, by omega⟩) (abs_le.mpr ⟨hqlo, hqhi⟩) (abs_nonneg _) (by decide)
  obtain ⟨hlower, hupper⟩ := abs_le.mp hprod
  have hexact : (fxmul p q).toInt = p.toInt * q.toInt / 256 := by
    rw [fxmul, BitVec.toInt_ofInt]
    exact Int.bmod_eq_of_le (by omega) (by omega)
  rw [fits8_iff_toInt, hexact]
  omega

theorem trigBounded_fxneg {v : Wide} (h : TrigBounded v) : TrigBounded (fxneg v) := by
  obtain ⟨hlo, hhi⟩ := h
  have hneg : (fxneg v).toInt = -v.toInt := by
    rw [fxneg, BitVec.toInt_ofInt]
    exact Int.bmod_eq_of_le (by omega) (by omega)
  rw [TrigBounded, hneg]
  omega

/-- The coefficient tests of BGSRP never fail when both scale lanes fit (R185). -/
theorem firstUnfit_composite (o p : Vec2) {sc : Vec2} (k : BitVec 8) (hx : fits8 sc.x = true) (hy : fits8 sc.y = true) :
    firstUnfit (composite o p sc k) = none := by
  rw [compositeClosedForm o p sc k, firstUnfit_eq_none]
  exact ⟨fits8_fxmul hx (trigBounded_cosT k), fits8_fxmul hx (trigBounded_fxneg (trigBounded_sinT k)),
    fits8_fxmul hy (trigBounded_sinT k), fits8_fxmul hy (trigBounded_cosT k)⟩

theorem exec_bgsrp_of_fits {s : State} {c : Idx} (d a b e : Idx) (hx : fits8 (s.readV c).x = true) (hy : fits8 (s.readV c).y = true) :
    exec (.bgsrp d a b c e) s = .next (s.writeB d
      (narrowBg (composite (s.readV a) (s.readV b) (s.readV c) (angleOf (s.readV e))))).completeFallible :=
  exec_of_no_failing (exec_bgsrp_of_fit_scale d a b e ((firstUnfitScale_eq_none _).mpr ⟨hx, hy⟩) rfl) (firstUnfit_composite _ _ _ hx hy)

/-- Settles O29: with a scale that fits nothing can fail and the cut loses nothing; else the scale test raises. -/
theorem bgsrpComposesAndNarrows : Obligations.BgsrpComposesAndNarrows := by
  obtain ⟨hraise, -⟩ := bgsrpRaisesOverflowOnUnfitScale
  refine ⟨fun s d a b c e hx hy => ⟨opcOf_assemble 0x20 d a b c e, _, exec_bgsrp_of_fits d a b e hx hy, ⟨?_, ?_⟩, ?_⟩,
    fun s d a b c e hx => hraise s d a b c e 4 (.inl ⟨rfl, hx⟩),
    fun s d a b c e hx hy => hraise s d a b c e 5 (.inr ⟨rfl, hx, hy⟩)⟩
  · rw [readB_completeFallible, readB_writeB_self, compositeClosedForm]
    rfl
  · have hfit := (firstUnfit_eq_none _).mp (firstUnfit_composite (s.readV a) (s.readV b) (angleOf (s.readV e)) hx hy)
    rw [compositeClosedForm] at hfit
    obtain ⟨ha, hb, hc, hd⟩ := hfit
    exact ⟨(toInt_extractLsb'_of_fits8 _ ha).symm, (toInt_extractLsb'_of_fits8 _ hb).symm, (toInt_extractLsb'_of_fits8 _ hc).symm,
      (toInt_extractLsb'_of_fits8 _ hd).symm⟩
  · exact completesInto_of_onlyWrites (onlyWrites_writeB s d _)

end Sys2Proof.Machine
